-- ==== Sys2Proof/Word.lean ====
section
/-! DEFINITION. The bit-vector types of the digest engine (spec 00_scope.md R9, R10): bytes, 32-bit command words and
64-bit response data words. Words of the datapath are `BitVec w`, with w = 32 or 64 by instance. -/

namespace Sys2Proof

/-- One byte of the payload or of the block buffer (R17, R52). -/
abbrev Byte := BitVec 8

/-- A command word CMD, 32 bits (R9, R52). -/
abbrev Cmd := BitVec 32

/-- A response data word DATA, and the message length, 64 bits (R9, R21, R53). -/
abbrev Word64 := BitVec 64

end Sys2Proof
end

