-- ==== Sys2Proof/Config.lean ====
section
/-! DEFINITION. What an implementation fixes: the two admitted instances, the shape of a parameter tuple, and the
open parameters LATENCY and PORT_MAP, which have no body. The values of the tuples are in Machine/Constants.lean. -/

namespace Sys2Proof

/-- The two admitted instances of the generic engine (R1, R7, R24). -/
inductive Variant where
  /-- `sha256_core`, VARIANT bit 0. -/
  | sha256
  /-- `sha512_core`, VARIANT bit 1. -/
  | sha512
deriving DecidableEq, Repr

/-- The three amounts of one sigma function: two rotations and a third amount, a rotation for a big sigma (R74) and a
shift for a little sigma (R75). -/
structure Triple where
  a : Nat
  b : Nat
  c : Nat
deriving DecidableEq, Repr

/-- The parameter tuple P = (W, B, R, K, IV, ROT) of R6, at word width `w`. -/
structure Params (w : Nat) where
  /-- B, the block size in bytes. -/
  block : Nat
  /-- R, the number of rounds. -/
  rounds : Nat
  /-- K, the round-constant table. -/
  k : List (BitVec w)
  /-- IV, the initialization vector. -/
  iv : Vector (BitVec w) 8
  /-- Rotations of Σ0 (R76). -/
  bigSigma0 : Triple
  /-- Rotations of Σ1 (R77). -/
  bigSigma1 : Triple
  /-- Rotations and shift of σ0 (R78). -/
  littleSigma0 : Triple
  /-- Rotations and shift of σ1 (R79). -/
  littleSigma1 : Triple
deriving DecidableEq, Repr

/-- The open part of LATENCY(command, compressions) (R149, D21): how many cycles beyond the first a command word takes
that runs the given number of compressions. Uninterpreted: no value of it can be proved (log entry 8). -/
opaque Config.extraCycles : Cmd → Nat → Nat

/-- The open parameter PORT_MAP (R37, D28): where a platform maps the command port, if it maps it. No rule reads it
(log entry 9). -/
opaque Config.portMap : Option Nat

end Sys2Proof
end

