-- ==== Sys2Proof/Machine/Mixing.lean ====
section
/-! DEFINITION. Word arithmetic and the bit-mixing functions on w-bit words (40_word_mixing.md R66 to R79). -/

namespace Sys2Proof.Machine

variable {w : Nat}

/-- add_modulo: addition modulo 2^w (R66). The sums of 42_compression.md write it `+`. -/
def addModulo (a b : BitVec w) : BitVec w := a + b

/-- rotr(x, n): rotate right (R70). -/
def rotr (x : BitVec w) (n : Nat) : BitVec w := (x >>> n) ||| (x <<< (w - n))

/-- x >> n: logical shift right (R71). -/
def shr (x : BitVec w) (n : Nat) : BitVec w := x >>> n

/-- Ch: x chooses between y and z (R72). -/
def ch (x y z : BitVec w) : BitVec w := (x &&& y) ^^^ (~~~x &&& z)

/-- Maj: the majority of x, y, z (R73). -/
def maj (x y z : BitVec w) : BitVec w := (x &&& y) ^^^ (x &&& z) ^^^ (y &&& z)

/-- BigSigma[A,B,C]: three rotations (R74). -/
def bigSigma (t : Triple) (x : BitVec w) : BitVec w := rotr x t.a ^^^ rotr x t.b ^^^ rotr x t.c

/-- LittleSigma[A,B,C]: two rotations and a shift (R75). -/
def littleSigma (t : Triple) (x : BitVec w) : BitVec w := rotr x t.a ^^^ rotr x t.b ^^^ shr x t.c

end Sys2Proof.Machine
end

