-- ==== Sys2Proof/Syntax.lean ====
section
/-! DEFINITION. The commands, one constructor per row of spec/opcode_table.json (R58, R59). A command's payload is not
part of the decoded command (R59): a meaning reads it from the port. -/

namespace Sys2Proof

/-- A decoded command (R59). -/
inductive Instr where
  /-- INIT: re-initialize the engine (R110). -/
  | init
  /-- START: begin a message; its length is in the payload (R111). -/
  | start
  /-- EOI: end-of-input, the FD word with COUNT = 0 (R114). -/
  | eoi
  /-- DATA: deliver `count` payload bytes (R113). -/
  | data (count : BitVec 8)
  /-- IOERR: the byte source failed (R116). -/
  | ioerr
  /-- RDSTAT: read the status word (R117). -/
  | rdstat
  /-- RDDIG: read digest word `idx` (R118). -/
  | rddig (idx : BitVec 3)
deriving DecidableEq, Repr

end Sys2Proof
end

