-- ==== Sys2Proof/WellFormed.lean ====
section
/-! DEFINITION. When a command is one that some command word encodes, and when a parameter tuple meets the conditions
of R8. -/

namespace Sys2Proof

/-- COUNT ≠ 0 in a DATA command: the word with COUNT = 0 is EOI (R57, R58). The other fields admit every value. -/
def Instr.wf : Instr → Bool
  | .init => true
  | .start => true
  | .eoi => true
  | .data count => count != 0
  | .ioerr => true
  | .rdstat => true
  | .rddig _ => true

/-- The command is one a command word encodes. -/
abbrev Instr.WellFormed (i : Instr) : Prop := i.wf = true

/-- Every amount is in 1..w−1 (R8, R70, R71). -/
def Triple.inRange (t : Triple) (w : Nat) : Bool :=
  (1 ≤ t.a && t.a < w) && (1 ≤ t.b && t.b < w) && (1 ≤ t.c && t.c < w)

/-- The conditions of R8 on a tuple: B = 2·W, R ≥ 16, |K| = R, every amount in 1..W−1, B/8 ≥ 8. -/
def Params.wf {w : Nat} (p : Params w) : Bool :=
  p.block == 2 * w && 16 ≤ p.rounds && p.k.length == p.rounds
    && p.bigSigma0.inRange w && p.bigSigma1.inRange w
    && p.littleSigma0.inRange w && p.littleSigma1.inRange w
    && 8 ≤ p.block / 8

/-- The tuple meets R8's conditions. -/
abbrev Params.WellFormed {w : Nat} (p : Params w) : Prop := p.wf = true

end Sys2Proof
end

