-- ==== Sys2Proof/Machine/State.lean ====
section
/-! DEFINITION. The state of one core instance (10_state.md), the command port and the host's events, the reasons a step
can stop, and the state after reset (R29, R141). -/

namespace Sys2Proof.Machine

/-- PHASE (R19). -/
inductive Phase where
  /-- EMPTY: no message started. -/
  | empty
  /-- ACCUM: accumulating message bytes. -/
  | accum
  /-- FINAL: finalizing; transient inside EOI, never held between commands. -/
  | final
  /-- DONE: H holds the final digest. -/
  | done
  /-- FAULTED: a fatal error occurred. -/
  | faulted
deriving DecidableEq, Repr

/-- The error codes of R127, as ERR holds them. The codes 5..15 are never produced, so they have no constructor. -/
inductive ErrCode where
  /-- OK: no error. -/
  | ok
  /-- IO_FAULT (fatal): the byte source reported a read failure. -/
  | ioFault
  /-- CONTRACT (fatal): COUNT > B − FILL. -/
  | contract
  /-- ILLEGAL (reject): a reserved encoding. -/
  | illegal
  /-- BAD_STATE (reject): a command outside its legal phases. -/
  | badState
deriving DecidableEq, Repr

/-- The response to a request (R53): a 4-bit error code and a 64-bit data word. -/
structure Response where
  errc : BitVec 4
  data : Word64
deriving DecidableEq, Repr

/-- A request (R52): a command word and the payload lanes the host drives, PL[0] first. A lane the list does not reach
carries 0, and bytes beyond lane B−1 have no lane to travel on (log entry 4). -/
structure Request where
  cmd : Cmd
  payload : List Byte
deriving DecidableEq, Repr

/-- What the host can do to the core (R150). -/
inductive HostEvent where
  /-- Present a request and wait for its response (R52, R147). -/
  | request (r : Request)
  /-- Assert reset between commands (R141). -/
  | reset
  /-- Present a request and assert reset before its response (R142). -/
  | resetDuring (r : Request)
deriving DecidableEq, Repr

/-- The Digest State H[0..7], eight words of the instance's width (R15). Its constructor is the hardwired VARIANT (R24). -/
inductive Digest where
  | sha256 (h : Vector (BitVec 32) 8)
  | sha512 (h : Vector (BitVec 64) 8)
deriving DecidableEq, Repr

/-- Which instance the Digest State belongs to (R24). -/
def Digest.variant : Digest → Variant
  | .sha256 _ => .sha256
  | .sha512 _ => .sha512

/-- H = IV of the instance (R29). -/
def Digest.initial : Variant → Digest
  | .sha256 => .sha256 sha256Params.iv
  | .sha512 => .sha512 sha512Params.iv

/-- The state of one core instance. The first six fields are the architectural state, and R13 says they are all of it;
the last three are the model's own, the command port and the host (log entry 2). -/
structure State where
  /-- H[0..7] (R15). -/
  digest : Digest
  /-- BUF[0..B−1] (R17). -/
  buf : List Byte
  /-- FILL, the valid prefix length of BUF, in its 8-bit field (R18). -/
  fill : BitVec 8
  /-- PHASE (R19). -/
  phase : Phase
  /-- MSG_LEN, the message length in bytes (R21). -/
  msgLen : Word64
  /-- ERR, the most recent error (R22). -/
  err : ErrCode
  /-- PL: the payload of the request being executed (R52). -/
  payload : List Byte
  /-- The response the last step gave, if it gave one (R53, R141). -/
  resp : Option Response
  /-- What the host will do, oldest first (R52, R141, R142). -/
  inputs : List HostEvent
deriving DecidableEq, Repr

/-- Which instance this is: the VARIANT bit, hardwired (R24). -/
def State.variant (s : State) : Variant := s.digest.variant

/-- Why a step faults. -/
inductive Fault where
  /-- word_from_bytes was given a slice that is not W/8 bytes long (R68). Raised by `wordFromBytes` alone, by no command
  (R68: it cannot occur in the core). Safe. -/
  | wordLength
deriving DecidableEq, Repr

/-- Why the model gives no step. -/
inductive Refusal where
  /-- The command has no meaning yet. Raised by an arm of `exec` alone; no arm raises it. Safe. -/
  | notModelled (mnemonic : String)
  /-- The instance asked for has a parameter tuple that R7 does not admit (R8). Raised by `instantiate` alone, by no
  command. Safe. -/
  | unadmittedTuple
deriving DecidableEq, Repr

/-- The state of an instance right after reset (R29, R141), with no request presented. -/
def State.resetOf (v : Variant) : State where
  digest := Digest.initial v
  buf := List.replicate (blockBytes v) 0
  fill := 0
  phase := .empty
  msgLen := 0
  err := .ok
  payload := []
  resp := none
  inputs := []

/-- The machine right after reset: the sha256_core instance (log entry 1; `State.resetOf .sha512` is the other). -/
def State.reset : State := State.resetOf .sha256

end Sys2Proof.Machine
end

