-- ==== Sys2Proof/Machine/Operands.lean ====
section
/-! DEFINITION. Conversions between bytes and words (R11, R39, R67) and the operands a command takes from its payload
(R56, R57). -/

namespace Sys2Proof.Machine

/-- The unsigned number that a byte sequence spells, most significant byte first (R11). -/
def natOfBytes (bs : List Byte) : Nat := bs.foldl (fun acc b => acc * 256 + b.toNat) 0

/-- be_w: the w-bit big-endian value of a byte sequence (R11, R39). -/
def wordOfBytes (w : Nat) (bs : List Byte) : BitVec w := BitVec.ofNat w (natOfBytes bs)

/-- word_from_bytes on any byte sequence: the big-endian word, or the fault of R68 when the sequence is not W/8 bytes
long (R67, R68). -/
def wordFromBytes (w : Nat) (bs : List Byte) : Except Fault (BitVec w) :=
  if bs.length = bytesPerWord w then .ok (wordOfBytes w bs) else .error .wordLength

/-- bytes_be: the `n` low bytes of a word, most significant first (R11). -/
def bytesOfWord {w : Nat} (n : Nat) (v : BitVec w) : List Byte :=
  (List.range n).map fun j => v.extractLsb' (8 * (n - 1 - j)) 8

/-- The lane PL[j] of a payload (R52; log entry 4). -/
def lane (payload : List Byte) (j : Nat) : Byte := payload.getD j 0

/-- The lanes PL[0..n−1] of a payload. -/
def lanes (payload : List Byte) (n : Nat) : List Byte := (List.range n).map (lane payload)

/-- The operand of START: LEN = be_64(PL[0..7]) (R43, R56). -/
def startLength (s : State) : Word64 := wordOfBytes 64 (lanes s.payload 8)

/-- The operand of DATA: the bytes PL[0..COUNT−1] in message order (R57). -/
def dataBytes (count : BitVec 8) (s : State) : List Byte := lanes s.payload count.toNat

/-- The space the buffer offers, B − FILL (R46, R113). -/
def spaceOffered (s : State) : Nat := blockBytes s.variant - s.fill.toNat

/-- H[i] zero-extended to 64 bits (R118). -/
def Digest.word (d : Digest) (i : BitVec 3) : Word64 :=
  match d with
  | .sha256 h => (h[i.toNat]'i.isLt).zeroExtend 64
  | .sha512 h => h[i.toNat]'i.isLt

end Sys2Proof.Machine
end

