-- ==== Sys2Proof/Machine/Compression.lean ====
section
/-! DEFINITION. The compression of one block: schedule, rounds, state update (42_compression.md R96 to R101, R106). -/

namespace Sys2Proof.Machine

variable {w : Nat}

/-- Schedule word j < 16: bytes j·NB .. j·NB+NB−1 of the block, big-endian (R40, R97). -/
def blockWord (w : Nat) (blk : List Byte) (j : Nat) : BitVec w :=
  wordOfBytes w ((blk.drop (j * bytesPerWord w)).take (bytesPerWord w))

/-- The first 16 words of the schedule (R97). -/
def firstWords (w : Nat) (blk : List Byte) : List (BitVec w) := (List.range 16).map (blockWord w blk)

/-- w[i] from w[i−16], w[i−15], w[i−7] and w[i−2], where i is the number of words so far (R98). -/
def nextWord (p : Params w) (ws : List (BitVec w)) : BitVec w :=
  ws.getD (ws.length - 16) 0 + littleSigma p.littleSigma0 (ws.getD (ws.length - 15) 0)
    + ws.getD (ws.length - 7) 0 + littleSigma p.littleSigma1 (ws.getD (ws.length - 2) 0)

/-- `n` more words of the schedule (R98). -/
def expandSchedule (p : Params w) : Nat → List (BitVec w) → List (BitVec w)
  | 0, ws => ws
  | n + 1, ws => expandSchedule p n (ws ++ [nextWord p ws])

/-- The message schedule w[0..R−1] of a block (R97, R98). -/
def schedule (p : Params w) (blk : List Byte) : List (BitVec w) :=
  expandSchedule p (p.rounds - 16) (firstWords w blk)

/-- The working variables a..h (R99). -/
structure Working (w : Nat) where
  a : BitVec w
  b : BitVec w
  c : BitVec w
  d : BitVec w
  e : BitVec w
  f : BitVec w
  g : BitVec w
  h : BitVec w
deriving DecidableEq, Repr

/-- (a..h) ← (H[0]..H[7]) (R99). -/
def workingOf (hs : Vector (BitVec w) 8) : Working w :=
  ⟨hs[0], hs[1], hs[2], hs[3], hs[4], hs[5], hs[6], hs[7]⟩

/-- T1 = h + Σ1(e) + Ch(e,f,g) + K[i] + w[i] (R99). -/
def temp1 (p : Params w) (k wi : BitVec w) (v : Working w) : BitVec w :=
  v.h + bigSigma p.bigSigma1 v.e + ch v.e v.f v.g + k + wi

/-- T2 = Σ0(a) + Maj(a,b,c) (R99). -/
def temp2 (p : Params w) (v : Working w) : BitVec w := bigSigma p.bigSigma0 v.a + maj v.a v.b v.c

/-- One round: the simultaneous update of the eight working variables (R99). -/
def oneRound (p : Params w) (k wi : BitVec w) (v : Working w) : Working w where
  a := temp1 p k wi v + temp2 p v
  b := v.a
  c := v.b
  d := v.c
  e := v.d + temp1 p k wi v
  f := v.e
  g := v.f
  h := v.g

/-- The working variables after rounds 0..n−1; round i reads K[i] and w[i] (R99, R106). -/
def afterRounds (p : Params w) (ws : List (BitVec w)) (v : Working w) : Nat → Working w
  | 0 => v
  | n + 1 => oneRound p (p.k.getD n 0) (ws.getD n 0) (afterRounds p ws v n)

/-- H[i] ← H[i] + (a..h)[i] (R100). -/
def feedForward (hs : Vector (BitVec w) 8) (v : Working w) : Vector (BitVec w) 8 :=
  #v[hs[0] + v.a, hs[1] + v.b, hs[2] + v.c, hs[3] + v.d,
     hs[4] + v.e, hs[5] + v.f, hs[6] + v.g, hs[7] + v.h]

/-- Compress(blk) on the words H (R101). -/
def compressWords (p : Params w) (hs : Vector (BitVec w) 8) (blk : List Byte) : Vector (BitVec w) 8 :=
  feedForward hs (afterRounds p (schedule p blk) (workingOf hs) p.rounds)

/-- Compress(blk) on the Digest State, with the constants and amounts of its own instance (R80, R96, R101). -/
def compress (d : Digest) (blk : List Byte) : Digest :=
  match d with
  | .sha256 hs => .sha256 (compressWords sha256Params hs blk)
  | .sha512 hs => .sha512 (compressWords sha512Params hs blk)

/-- Several blocks, compressed in order, each once (R85, R95). -/
def compressAll (d : Digest) (blocks : List (List Byte)) : Digest := blocks.foldl compress d

end Sys2Proof.Machine
end

