-- ==== Sys2Proof/Machine/Flags.lean ====
section
/-! DEFINITION. The codes of PHASE and ERR (R19, R127) and the status word (R23). The core has no other flag (R25). -/

namespace Sys2Proof.Machine

/-- The 3-bit code of PHASE (R19). -/
def Phase.code : Phase → BitVec 3
  | .empty => 0
  | .accum => 1
  | .final => 2
  | .done => 3
  | .faulted => 4

/-- The 4-bit code of an error (R127). -/
def ErrCode.code : ErrCode → BitVec 4
  | .ok => 0
  | .ioFault => 1
  | .contract => 2
  | .illegal => 3
  | .badState => 4

/-- Whether the error is one of the fatal ones (R127, R129). -/
def ErrCode.fatal : ErrCode → Bool
  | .ok => false
  | .ioFault => true
  | .contract => true
  | .illegal => false
  | .badState => false

/-- The status word: reserved [31:17], VARIANT [16], FILL [15:8], ERR [7:4], reserved [3], PHASE [2:0] (R23). -/
def statusWord (s : State) : BitVec 32 :=
  (0 : BitVec 15) ++ variantBit s.variant ++ s.fill ++ s.err.code ++ (0 : BitVec 1) ++ s.phase.code

end Sys2Proof.Machine
end

