-- ==== Sys2Proof/Machine/Padding.lean ====
section
/-! DEFINITION. The padding of the final block or blocks (41_engine_padding.md R87 to R92). -/

namespace Sys2Proof.Machine

/-- L64 = (len · 8) mod 2^64 (R90, R91). -/
def bitLength (len : Word64) : Word64 := BitVec.ofNat 64 (len.toNat * 8)

/-- The 8-byte length field, big-endian (R41, R90). -/
def lengthField (len : Word64) : List Byte := bytesOfWord 8 (bitLength len)

/-- `n` zero bytes. -/
def zeroBytes (n : Nat) : List Byte := List.replicate n 0

/-- The terminator byte 0x80 (R87 step 1). -/
def terminator : Byte := 0x80

/-- Pad(fill, len) on the bytes of BUF: one block when fill < LB, else the spillover pair (R87, R88, R89). -/
def pad (v : Variant) (buf : List Byte) (fill : Nat) (len : Word64) : List (List Byte) :=
  if fill < lowerBound v then
    [buf.take fill ++ terminator :: zeroBytes (blockBytes v - 8 - (fill + 1)) ++ lengthField len]
  else
    [buf.take fill ++ terminator :: zeroBytes (blockBytes v - (fill + 1)),
     zeroBytes (blockBytes v - 8) ++ lengthField len]

end Sys2Proof.Machine
end

