-- ==== Sys2Proof/Machine/Ops.lean ====
section
/-! DEFINITION. The shared operations of the commands: responding, rejecting, entering the fault phase (R129) and leaving
it (R133), the legality of a command in a phase (R112), and Absorb, CompressFull and Finalize (R82, R83, R85). -/

namespace Sys2Proof.Machine

/-- respond(e, d): end the command with error code e and data word d (R12, R53). -/
def respond (e : ErrCode) (d : Word64) (s : State) : State := { s with resp := some ⟨e.code, d⟩ }

/-- Write ERR unless the core is in FAULTED, where ERR keeps the cause of the fault (R22, R130). -/
def recordError (e : ErrCode) (s : State) : State :=
  if s.phase = .faulted then s else { s with err := e }

/-- raise Reject(e): the command is as if not issued, except for ERR and its response (R130). -/
def reject (e : ErrCode) (s : State) : State := respond e 0 (recordError e s)

/-- raise Fatal(e): ERR ← e, PHASE ← FAULTED, and nothing else changes (R129). -/
def fatal (e : ErrCode) (s : State) : State := respond e 0 { s with err := e, phase := .faulted }

/-- The values of R29: what INIT and reset leave in the architectural state, and the only way out of FAULTED and DONE
(R110, R133, R141). -/
def reinitialize (s : State) : State :=
  { s with
    digest := Digest.initial s.variant
    buf := zeroBytes (blockBytes s.variant)
    fill := 0
    phase := .empty
    msgLen := 0
    err := .ok }

/-- The phases in which each command is legal (R112). FINAL is never held between commands (R20); in it only the
commands legal in every phase are legal (log entry 6). -/
def legalIn : Instr → Phase → Bool
  | .init, _ => true
  | .start, p => p = .empty
  | .eoi, p => p = .accum
  | .data _, p => p = .accum
  | .ioerr, p => p = .accum
  | .rdstat, _ => true
  | .rddig _, p => p = .done

/-- Run a command's rule if the phase admits the command, else Reject(BAD_STATE) (R109, R112). -/
def whenLegal (i : Instr) (rule : State → State) (s : State) : Host.Outcome State Fault Refusal :=
  if legalIn i s.phase then .next (rule s) else .next (reject .badState s)

/-- BUF[off + j] ← d[j] for each byte of `d`, in order (R82). -/
def writeBytes : List Byte → Nat → List Byte → List Byte
  | buf, _, [] => buf
  | buf, off, d :: ds => writeBytes (buf.set off d) (off + 1) ds

/-- CompressFull: compress BUF and empty it; BUF keeps its bytes (R83). -/
def compressFull (s : State) : State := { s with digest := compress s.digest s.buf, fill := 0 }

/-- Absorb: append the bytes to BUF, and compress when FILL reaches B (R82). -/
def absorb (d : List Byte) (s : State) : State :=
  let s1 := { s with buf := writeBytes s.buf s.fill.toNat d, fill := s.fill + BitVec.ofNat 8 d.length }
  if s1.fill.toNat = blockBytes s1.variant then compressFull s1 else s1

/-- The blocks that Pad produces from the state (R85, R87). -/
def finalBlocks (s : State) : List (List Byte) := pad s.variant s.buf s.fill.toNat s.msgLen

/-- Finalize: through the transient FINAL, pad, compress the one or two blocks in order, and end in DONE with BUF holding
the last block (R85). -/
def finalize (s : State) : State :=
  let s1 := { s with phase := .final }
  { s1 with
    digest := compressAll s1.digest (finalBlocks s1)
    buf := (finalBlocks s1).getLastD s1.buf
    fill := 0
    phase := .done }

end Sys2Proof.Machine
end

