-- ==== Sys2Proof/Machine/Message.lean ====
section
/-! DEFINITION. The commands of format FD, which deliver the message: DATA and EOI (R113, R114). -/

namespace Sys2Proof.Machine

/-- DATA, in its legal phase: the contract violation, or the bytes absorbed (R113). -/
def deliver (count : BitVec 8) (s : State) : State :=
  if spaceOffered s < count.toNat then fatal .contract s
  else respond .ok 0 (absorb (dataBytes count s) s)

/-- DATA (R113). -/
def execData (count : BitVec 8) (s : State) : Host.Outcome State Fault Refusal :=
  whenLegal (.data count) (deliver count) s

/-- EOI (R114). -/
def execEoi (s : State) : Host.Outcome State Fault Refusal :=
  whenLegal .eoi (fun s => respond .ok 0 (finalize s)) s

end Sys2Proof.Machine
end

