-- ==== Sys2Proof/Machine/Readout.lean ====
section
/-! DEFINITION. The command of format FR, RDDIG (R118), and the observation functions of the digest that a host applies:
the digest bytes (R42) and the hexadecimal rendering (R120). -/

namespace Sys2Proof.Machine

/-- RDDIG (R118). -/
def execRddig (idx : BitVec 3) (s : State) : Host.Outcome State Fault Refusal :=
  whenLegal (.rddig idx) (fun s => respond .ok (s.digest.word idx) s) s

/-- The digest as a byte string: the words in state order, each most significant byte first (R42, R120). -/
def digestBytes : Digest → List Byte
  | .sha256 h => h.toList.flatMap (bytesOfWord 4)
  | .sha512 h => h.toList.flatMap (bytesOfWord 8)

/-- A lowercase hexadecimal digit, for a value below 16 (R120). -/
def hexDigit (n : Nat) : Char := if n < 10 then Char.ofNat (48 + n) else Char.ofNat (87 + n)

/-- hex_n(v): the n lowercase hexadecimal digits of v, most significant first, zero-padded (R120). -/
def hexDigits {w : Nat} (n : Nat) (v : BitVec w) : List Char :=
  (List.range n).map fun j => hexDigit (v.extractLsb' (4 * (n - 1 - j)) 4).toNat

/-- The characters of to_hex(H): each word at 2·NB digits, in state order, no separators (R120). -/
def hexChars : Digest → List Char
  | .sha256 h => h.toList.flatMap (hexDigits 8)
  | .sha512 h => h.toList.flatMap (hexDigits 16)

/-- to_hex(H), the string of the source's `to_hex_string` (R120). -/
def toHex (d : Digest) : String := String.ofList (hexChars d)

end Sys2Proof.Machine
end

