-- ==== Sys2Proof/Machine/Session.lean ====
section
/-! DEFINITION. The commands of format F0 that begin, end or inspect a session: INIT, START, IOERR, RDSTAT, and what an
ILLEGAL word does (R110, R111, R116, R117, R119). -/

namespace Sys2Proof.Machine

/-- INIT (R110). -/
def execInit (s : State) : Host.Outcome State Fault Refusal :=
  whenLegal .init (fun s => respond .ok 0 (reinitialize s)) s

/-- START (R111). -/
def execStart (s : State) : Host.Outcome State Fault Refusal :=
  whenLegal .start (fun s => respond .ok 0 { s with msgLen := startLength s, phase := .accum }) s

/-- IOERR (R116). -/
def execIoerr (s : State) : Host.Outcome State Fault Refusal :=
  whenLegal .ioerr (fatal .ioFault) s

/-- RDSTAT (R117). -/
def execRdstat (s : State) : Host.Outcome State Fault Refusal :=
  whenLegal .rdstat (fun s => respond .ok ((statusWord s).zeroExtend 64) s) s

/-- An ILLEGAL word, in every phase (R119). -/
def execIllegal (s : State) : Host.Outcome State Fault Refusal := .next (reject .illegal s)

end Sys2Proof.Machine
end

