-- ==== Sys2Proof/Machine/Dispatch.lean ====
section
/-! DEFINITION. The meaning of each command, one arm per constructor of Instr (R58, R109). -/

namespace Sys2Proof.Machine

def exec (i : Instr) (s : State) : Host.Outcome State Fault Refusal :=
  match i with
  | .init => Sys2Proof.Machine.execInit s
  | .start => Sys2Proof.Machine.execStart s
  | .eoi => Sys2Proof.Machine.execEoi s
  | .data count => Sys2Proof.Machine.execData count s
  | .ioerr => Sys2Proof.Machine.execIoerr s
  | .rdstat => Sys2Proof.Machine.execRdstat s
  | .rddig idx => Sys2Proof.Machine.execRddig idx s

end Sys2Proof.Machine
end

