-- ==== Sys2Proof/Decode.lean ====
section
/-! DEFINITION. The total decoder of command words (R54 to R61), the encoder written from the same formats, and the
host's view of the decoder through the opcode table's bit numbering. -/

namespace Sys2Proof

/-- Why a word is ILLEGAL. Both are the same error of the core, ILLEGAL (R60, R61). -/
inductive DecodeError where
  /-- OP is 0x0 or 0x7..0xF (R60). -/
  | reservedOp
  /-- OP is assigned and a reserved-zero bit is 1 (R61). -/
  | reservedBits
deriving DecidableEq, Repr

/-- The result of decoding: a command, or ILLEGAL (R59). -/
inductive Decoded where
  | instr (i : Instr)
  | illegal (why : DecodeError)
deriving DecidableEq, Repr

/-- OP = CMD[31:28] (R54). -/
def opField (w : Cmd) : BitVec 4 := w.extractLsb' 28 4

/-- COUNT = CMD[7:0] (R54). -/
def countField (w : Cmd) : BitVec 8 := w.extractLsb' 0 8

/-- IDX = CMD[2:0] (R54). -/
def idxField (w : Cmd) : BitVec 3 := w.extractLsb' 0 3

/-- The reserved-zero bits of format F0, CMD[27:0] (R55). -/
def reservedF0 (w : Cmd) : BitVec 28 := w.extractLsb' 0 28

/-- The reserved-zero bits of format FD, CMD[27:8] (R55). -/
def reservedFD (w : Cmd) : BitVec 20 := w.extractLsb' 8 20

/-- The reserved-zero bits of format FR, CMD[27:3] (R55). -/
def reservedFR (w : Cmd) : BitVec 25 := w.extractLsb' 3 25

/-- Decode a word of format F0 as the command `i` (R55, R59). -/
def decodeF0 (i : Instr) (w : Cmd) : Decoded :=
  if reservedF0 w = 0 then .instr i else .illegal .reservedBits

/-- Decode a word of format FD: EOI when COUNT = 0, else DATA (R58, R59). -/
def decodeFD (w : Cmd) : Decoded :=
  if reservedFD w = 0 then
    (if countField w = 0 then .instr .eoi else .instr (.data (countField w)))
  else .illegal .reservedBits

/-- Decode a word of format FR (R55, R59). -/
def decodeFR (w : Cmd) : Decoded :=
  if reservedFR w = 0 then .instr (.rddig (idxField w)) else .illegal .reservedBits

/-- The decoder, total on the 2^32 words (R59). -/
def decode (w : Cmd) : Decoded :=
  match (opField w).toNat with
  | 1 => decodeF0 .init w
  | 2 => decodeF0 .start w
  | 3 => decodeFD w
  | 4 => decodeF0 .ioerr w
  | 5 => decodeF0 .rdstat w
  | 6 => decodeFR w
  | _ => .illegal .reservedOp

/-- The command word whose bits the opcode table numbers `w`: its `nbits` low bits, and zeros above. -/
def tableCmd (nbits w : Nat) : Cmd := BitVec.ofNat 32 (w % 2 ^ nbits)

/-- What the decoder reads from an instruction whose bits are `w`, numbered as spec/opcode_table.json numbers them. -/
def decodeTableWord (nbits w : Nat) : Option Instr :=
  match decode (tableCmd nbits w) with
  | .instr i => some i
  | .illegal _ => none

/-- Format F0: OP and 28 reserved zeros (R55). -/
def formatF0 (op : BitVec 4) : Cmd := op ++ (0 : BitVec 28)

/-- Format FD: OP, 20 reserved zeros and COUNT (R55). -/
def formatFD (op : BitVec 4) (count : BitVec 8) : Cmd := op ++ (0 : BitVec 20) ++ count

/-- Format FR: OP, 25 reserved zeros and IDX (R55). -/
def formatFR (op : BitVec 4) (idx : BitVec 3) : Cmd := op ++ (0 : BitVec 25) ++ idx

/-- The command word of a well-formed command (R55, R58, R64). -/
def encode : Instr → Cmd
  | .init => formatF0 1
  | .start => formatF0 2
  | .eoi => formatFD 3 0
  | .data count => formatFD 3 count
  | .ioerr => formatF0 4
  | .rdstat => formatF0 5
  | .rddig idx => formatFR 6 idx

/-- The match column of the opcode map's row (R58). -/
def rowMatch : Instr → Cmd
  | .init => 0x10000000
  | .start => 0x20000000
  | .eoi => 0x30000000
  | .data _ => 0x30000000
  | .ioerr => 0x40000000
  | .rdstat => 0x50000000
  | .rddig _ => 0x60000000

/-- The mask column of the opcode map's row (R58). -/
def rowMask : Instr → Cmd
  | .init => 0xFFFFFFFF
  | .start => 0xFFFFFFFF
  | .eoi => 0xFFFFFFFF
  | .data _ => 0xFFFFFF00
  | .ioerr => 0xFFFFFFFF
  | .rdstat => 0xFFFFFFFF
  | .rddig _ => 0xFFFFFFF8

end Sys2Proof
end

