-- ==== Sys2Proof/Machine/Port.lean ====
section
/-! DEFINITION. The command port: presenting a request (R52), the reset input (R141, R142), the idle core (R148), the
request the host's checks place (log entry 11), and asking for an instance (R8). -/

namespace Sys2Proof.Machine

/-- The request `r` stands on the port, and `rest` is what the host does after it (R52, R147). -/
def presentRequest (r : Request) (rest : List HostEvent) (s : State) : State :=
  { s with payload := r.payload, inputs := rest }

/-- The reset input is asserted: every state element at its value of R29, no response (R141). A command in progress is
abandoned, whatever it had done (R142). -/
def assertReset (rest : List HostEvent) (s : State) : State :=
  { State.resetOf s.variant with inputs := rest }

/-- No event: the core keeps all its state and gives no response (R139, R148). -/
def idle (s : State) : State := { s with resp := none }

/-- The request whose bits are `w`: the command word in bits 31..0, and payload byte j in bits 8·j+39..8·j+32. -/
def requestOfBits (v : Variant) (nbits w : Nat) : Request where
  cmd := tableCmd nbits w
  payload := (List.range (blockBytes v)).map fun j => BitVec.ofNat 8 ((w % 2 ^ nbits) >>> (32 + 8 * j))

/-- The host presents the request whose bits are `w` before everything else it does. -/
def placeRequest (s : State) (nbits w : Nat) : State :=
  { s with inputs := .request (requestOfBits s.variant nbits w) :: s.inputs }

/-- The source's `create` for a parameter tuple: an instance of an admitted tuple in its reset state, and no step for any
other tuple (R8). -/
def instantiate (w : Nat) (p : Params w) : Host.Outcome State Fault Refusal :=
  match admittedVariant w p with
  | some v => .next (State.resetOf v)
  | none => .refused .unadmittedTuple

end Sys2Proof.Machine
end

