-- ==== Sys2Proof/Machine/Step.lean ====
section
/-! DEFINITION. One step: the next host event (R109, R141, R142, R148), and the host's placing of a request. -/

namespace Sys2Proof.Machine

/-- One step of the core: an ILLEGAL word is rejected before anything else, a command runs (R109), reset wins (R142), and
with no event the core idles (R148). -/
def step (s : State) : Host.Outcome State Fault Refusal :=
  match s.inputs with
  | [] => .next (idle s)
  | .reset :: rest => .next (assertReset rest s)
  | .resetDuring _ :: rest => .next (assertReset rest s)
  | .request r :: rest =>
    match decode r.cmd with
    | .instr i => exec i (presentRequest r rest s)
    | .illegal _ => execIllegal (presentRequest r rest s)

/-- The same state with the request whose bits are `w` presented next (log entry 11). -/
def State.withFetchWord (s : State) (nbits w : Nat) : State := placeRequest s nbits w

end Sys2Proof.Machine
end

