-- ==== Sys2Proof/Machine/Protocol.lean ====
section
/-! DEFINITION. The host's side: the assembly syntax and the pseudo-instructions (R64, R65), and the requests of the
protocol for one message (R144). -/

namespace Sys2Proof.Machine

/-- The first `n` blocks of `b` bytes of a byte sequence. -/
def blocksOf (b : Nat) : Nat → List Byte → List (List Byte)
  | 0, _ => []
  | n + 1, m => m.take b :: blocksOf b n (m.drop b)

/-- The chunks of min(B, remaining) bytes in message order (R65): the whole blocks, then what is left, if any is. -/
def chunksOf (b : Nat) (m : List Byte) : List (List Byte) :=
  blocksOf b ((m.length + b - 1) / b) m

/-- One line of assembly (R64), or a pseudo-instruction (R65). -/
inductive AsmLine where
  | init
  | start (len : Word64)
  | data (bytes : List Byte)
  | eoi
  | ioerr
  | rdstat
  | rddig (idx : BitVec 3)
  /-- `.word`: the word itself. -/
  | word (w : Cmd)
  /-- DIGEST: RDDIG 0 … RDDIG 7. -/
  | digest
  /-- HASH: the whole protocol for one message. -/
  | hash (m : List Byte)
deriving DecidableEq, Repr

/-- INIT as a request. -/
def initRequest : Request := ⟨encode .init, []⟩

/-- START len as a request: PL[0..7] = bytes_be_64(len) (R64). -/
def startRequest (len : Word64) : Request := ⟨encode .start, bytesOfWord 8 len⟩

/-- DATA as a request: COUNT is the number of bytes (R64). -/
def dataRequest (bytes : List Byte) : Request := ⟨encode (.data (BitVec.ofNat 8 bytes.length)), bytes⟩

/-- EOI as a request. -/
def eoiRequest : Request := ⟨encode .eoi, []⟩

/-- DIGEST: the eight RDDIG requests in index order (R65). -/
def digestRequests : List Request :=
  (List.range 8).map fun i => ⟨encode (.rddig (BitVec.ofNat 3 i)), []⟩

/-- The requests a line stands for, on an instance (R64, R65). -/
def assemble (v : Variant) : AsmLine → List Request
  | .init => [initRequest]
  | .start len => [startRequest len]
  | .data bytes => [dataRequest bytes]
  | .eoi => [eoiRequest]
  | .ioerr => [⟨encode .ioerr, []⟩]
  | .rdstat => [⟨encode .rdstat, []⟩]
  | .rddig idx => [⟨encode (.rddig idx), []⟩]
  | .word w => [⟨w, []⟩]
  | .digest => digestRequests
  | .hash m =>
    initRequest :: startRequest (BitVec.ofNat 64 m.length)
      :: (chunksOf (blockBytes v) m).map dataRequest ++ eoiRequest :: digestRequests

/-- The value of a digit in a base up to sixteen. DESIGN CHOICE (log entry 16): either case. -/
def digitValue (c : Char) : Option Nat :=
  let n := c.toNat
  if 48 ≤ n ∧ n ≤ 57 then some (n - 48)
  else if 97 ≤ n ∧ n ≤ 102 then some (n - 87)
  else if 65 ≤ n ∧ n ≤ 70 then some (n - 55)
  else none

/-- The number that digits spell in a base, continuing from `acc`. -/
def parseDigits (base : Nat) : Nat → List Char → Option Nat
  | acc, [] => some acc
  | acc, c :: cs =>
    match digitValue c with
    | some d => if d < base then parseDigits base (acc * base + d) cs else none
    | none => none

/-- A decimal or 0x-hexadecimal number of any digit count. R64 says so of START's len. DESIGN CHOICE (log entry 16): n of
DATA, i of RDDIG and the operand of .word, whose base and digit count R64 leaves open, are read in the same way. -/
def parseNumber : List Char → Option Nat
  | '0' :: 'x' :: c :: cs => parseDigits 16 0 (c :: cs)
  | c :: cs => parseDigits 10 0 (c :: cs)
  | [] => none

/-- A number below a bound. -/
def parseBelow (bound : Nat) (cs : List Char) : Option Nat :=
  match parseNumber cs with
  | some n => if n < bound then some n else none
  | none => none

/-- Bytes from pairs of hexadecimal digits. DESIGN CHOICE (log entry 16): an odd number of digits has no reading. -/
def parseHexBytes : List Char → Option (List Byte)
  | [] => some []
  | [_] => none
  | c :: d :: cs =>
    match digitValue c, digitValue d, parseHexBytes cs with
    | some hi, some lo, some bs => some (BitVec.ofNat 8 (hi * 16 + lo) :: bs)
    | _, _, _ => none

/-- Bytes from the ASCII characters up to the closing quote, which ends the text (R64). DESIGN CHOICE (log entry 16): there
is no escape. -/
def parseQuoted : List Char → Option (List Byte)
  | [] => none
  | ['"'] => some []
  | c :: cs =>
    if c = '"' ∨ 128 ≤ c.toNat then none
    else (parseQuoted cs).map (BitVec.ofNat 8 c.toNat :: ·)

/-- Bytes written as a quoted ASCII string or as 0x-hexadecimal (R64). -/
def parseBytes : List Char → Option (List Byte)
  | '"' :: cs => parseQuoted cs
  | '0' :: 'x' :: cs => parseHexBytes cs
  | _ => none

/-- A space or a tab. DESIGN CHOICE (log entry 16). -/
def isBlank (c : Char) : Bool := c = ' ' || c = '\t'

/-- The text without blanks at either end. -/
def trimBlanks (cs : List Char) : List Char :=
  ((cs.dropWhile isBlank).reverse.dropWhile isBlank).reverse

/-- The text before a comment, which a `;` starts (R64). DESIGN CHOICE (log entry 16): not one inside quotes. -/
def stripComment : Bool → List Char → List Char
  | _, [] => []
  | quoted, c :: cs =>
    if c = ';' ∧ quoted = false then []
    else c :: stripComment (if c = '"' then !quoted else quoted) cs

/-- A letter in upper case: mnemonics are case-insensitive (R64). -/
def upperCase (c : Char) : Char :=
  if 97 ≤ c.toNat ∧ c.toNat ≤ 122 then Char.ofNat (c.toNat - 32) else c

/-- A DATA line from its bytes, if a DATA command can carry them: n = 1..255 (R64). -/
def dataLine (bytes : List Byte) : Option AsmLine :=
  if 1 ≤ bytes.length ∧ bytes.length ≤ 255 then some (.data bytes) else none

/-- The operands of DATA: `bytes`, or `n, bytes` with n the length of bytes (R64). DESIGN CHOICE (log entry 16): the base
and digit count of n, and the blanks around the comma. -/
def parseData (args : List Char) : Option AsmLine :=
  match parseBytes args with
  | some bytes => dataLine bytes
  | none =>
    match parseNumber (trimBlanks (args.takeWhile (· ≠ ','))),
        parseBytes (trimBlanks ((args.dropWhile (· ≠ ',')).drop 1)) with
    | some n, some bytes => if n = bytes.length then dataLine bytes else none
    | _, _ => none

/-- A line without operands. -/
def bare (args : List Char) (l : AsmLine) : Option AsmLine := if args = [] then some l else none

/-- A line from its mnemonic, in upper case, and its operands (R64, R65). DESIGN CHOICE (log entry 16): every number, in
RDDIG and .word too, may be decimal or 0x-hexadecimal, of any digit count, within the bounds R64 gives. -/
def parseOperands (mnemonic args : List Char) : Option AsmLine :=
  match mnemonic with
  | ['I', 'N', 'I', 'T'] => bare args .init
  | ['S', 'T', 'A', 'R', 'T'] => (parseBelow (2 ^ 64) args).map fun n => .start (BitVec.ofNat 64 n)
  | ['D', 'A', 'T', 'A'] => parseData args
  | ['E', 'O', 'I'] => bare args .eoi
  | ['I', 'O', 'E', 'R', 'R'] => bare args .ioerr
  | ['R', 'D', 'S', 'T', 'A', 'T'] => bare args .rdstat
  | ['R', 'D', 'D', 'I', 'G'] => (parseBelow 8 args).map fun n => .rddig (BitVec.ofNat 3 n)
  | ['.', 'W', 'O', 'R', 'D'] => (parseBelow (2 ^ 32) args).map fun n => .word (BitVec.ofNat 32 n)
  | ['D', 'I', 'G', 'E', 'S', 'T'] => bare args .digest
  | ['H', 'A', 'S', 'H'] => (parseBytes args).map .hash
  | _ => none

/-- One line of assembly text (R64). DESIGN CHOICE (log entry 16): no command on a blank or comment line, and no reading of
a line that has none of the forms. -/
def parseLine (text : List Char) : Option (List AsmLine) :=
  let line := trimBlanks (stripComment false text)
  if line = [] then some []
  else
    (parseOperands ((line.takeWhile (fun c => !isBlank c)).map upperCase)
      (trimBlanks (line.dropWhile (fun c => !isBlank c)))).map ([·])

/-- The requests by which a host hashes a message delivered in the given pieces: INIT, START with the total length, one
DATA per piece, EOI, and the eight reads (R144). -/
def protocolRequests (pieces : List (List Byte)) : List Request :=
  initRequest :: startRequest (BitVec.ofNat 64 pieces.flatten.length)
    :: pieces.map dataRequest ++ eoiRequest :: digestRequests

end Sys2Proof.Machine
end

