-- ==== Sys2Proof/Machine/Timing.lean ====
section
/-! DEFINITION. The compressions each command runs (R115, R149) and the open parameter LATENCY (R149). Nothing of the
step reads this file: no rule depends on time. -/

namespace Sys2Proof.Machine

/-- How many compressions the command runs in this state (R115, R149). -/
def compressionsRun (i : Instr) (s : State) : Nat :=
  if legalIn i s.phase then
    match i with
    | .data count => if s.fill.toNat + count.toNat = blockBytes s.variant then 1 else 0
    | .eoi => if s.fill.toNat < lowerBound s.variant then 1 else 2
    | .init | .start | .ioerr | .rdstat | .rddig _ => 0
  else 0

/-- LATENCY(command, compressions): a positive, finite number of cycles, otherwise open (R149). -/
def latency (cmd : Cmd) (compressions : Nat) : Nat := Config.extraCycles cmd compressions + 1

/-- The cycles from a request to its response (R149). An ILLEGAL word runs no compression. -/
def cyclesOf (cmd : Cmd) (s : State) : Nat :=
  match decode cmd with
  | .instr i => latency cmd (compressionsRun i s)
  | .illegal _ => latency cmd 0

end Sys2Proof.Machine
end

