-- ==== Sys2Proof/Safety.lean ====
section
/-! DEFINITION. The states the core holds between commands, what a state has absorbed of a message, and the digest that
the padded message has, in the terms the statements use. -/

namespace Sys2Proof.Machine

/-- What holds between commands (R17, R18, R20, R22, R129): BUF has B bytes and FILL < B; PHASE is not FINAL; in EMPTY the
state is the reset state but for ERR; in DONE FILL = 0; ERR is a fatal code exactly in FAULTED. -/
abbrev State.Inv (s : State) : Prop :=
  s.buf.length = blockBytes s.variant
  ∧ s.fill.toNat < blockBytes s.variant
  ∧ s.phase ≠ .final
  ∧ (s.phase = .empty →
      s.digest = Digest.initial s.variant ∧ s.buf = zeroBytes (blockBytes s.variant) ∧ s.fill = 0 ∧ s.msgLen = 0)
  ∧ (s.phase = .done → s.fill = 0)
  ∧ (s.phase = .faulted ↔ s.err.fatal = true)

/-- The architectural state is that of `t`: every element of R13, and nothing of the command port. -/
abbrev State.SameCore (s t : State) : Prop :=
  s.digest = t.digest ∧ s.buf = t.buf ∧ s.fill = t.fill ∧ s.phase = t.phase ∧ s.msgLen = t.msgLen ∧ s.err = t.err

/-- The core is accumulating and has taken exactly the bytes `m` since the message began: every full block of them is
compressed, in order, and the rest are the first FILL bytes of BUF (R20, R82, R83). -/
abbrev State.Absorbed (s : State) (m : List Byte) : Prop :=
  s.phase = .accum
  ∧ s.buf.length = blockBytes s.variant
  ∧ s.fill.toNat = m.length % blockBytes s.variant
  ∧ s.digest = compressAll (Digest.initial s.variant)
      (blocksOf (blockBytes s.variant) (m.length / blockBytes s.variant) m)
  ∧ s.buf.take s.fill.toNat = m.drop (blockBytes s.variant * (m.length / blockBytes s.variant))

/-- The zero bytes between the terminator and the length field, so that the whole is a multiple of B with the reserved
region of B/8 bytes free (R6, R92, R93). -/
def zeroFill (v : Variant) (n : Nat) : Nat :=
  (blockBytes v - (n + 1 + blockBytes v / 8) % blockBytes v) % blockBytes v + (blockBytes v / 8 - 8)

/-- The padded message: the message, 0x80, zeros, and the 8-byte length field (R93). -/
def paddedMessage (v : Variant) (m : List Byte) (len : Word64) : List Byte :=
  m ++ terminator :: zeroBytes (zeroFill v m.length) ++ lengthField len

/-- The Digest State that the whole padded message gives from the IV, block after block (R93, R101). -/
def messageDigest (v : Variant) (m : List Byte) (len : Word64) : Digest :=
  compressAll (Digest.initial v)
    (blocksOf (blockBytes v) ((paddedMessage v m len).length / blockBytes v) (paddedMessage v m len))

end Sys2Proof.Machine
end

