-- ==== Sys2Proof/Certificates/Slice0/Obligations.lean ====
section
/-! DEFINITION. The statements for the provers. Each docstring names the rule it formalises. A stop is never the
conclusion: no command of this hardware stops the core. -/

open Sys2Proof Sys2Proof.Machine

/-! ### Encoding -/

/-- Words written out from the opcode map (R58), one per row, and reserved words (95_test_vectors.md section 5.1). -/
def Obligations.SpecWordsDecode : Prop :=
  decode 0x10000000 = .instr .init ∧ decode 0x20000000 = .instr .start ∧ decode 0x30000000 = .instr .eoi
  ∧ decode 0x30000001 = .instr (.data 1) ∧ decode 0x300000FF = .instr (.data 255)
  ∧ decode 0x40000000 = .instr .ioerr ∧ decode 0x50000000 = .instr .rdstat
  ∧ decode 0x60000000 = .instr (.rddig 0) ∧ decode 0x60000007 = .instr (.rddig 7)
  ∧ decode 0x10000001 = .illegal .reservedBits ∧ decode 0x30000100 = .illegal .reservedBits
  ∧ decode 0x60000008 = .illegal .reservedBits ∧ decode 0x00000000 = .illegal .reservedOp
  ∧ decode 0x70000000 = .illegal .reservedOp ∧ decode 0xFFFFFFFF = .illegal .reservedOp

/-- Decoding an encoded command gives it back, at every operand value (R54, R55, R58). -/
def Obligations.DecodeOfEncode : Prop :=
  ∀ i : Instr, i.WellFormed → decode (encode i) = .instr i

/-- A word that decodes to a command is that command's word, and the command is well-formed: no two words mean the same
(R55, R58). -/
def Obligations.EncodeOfDecode : Prop :=
  ∀ (w : Cmd) (i : Instr), decode w = .instr i → encode i = w ∧ i.WellFormed

/-- The opcode map (R58), row by row, as match and mask; OP 0x0 and 0x7..0xF are reserved. -/
def Obligations.DecodeIsTheOpcodeMap : Prop :=
  ∀ w : Cmd,
    (decode w = .instr .init ↔ w &&& 0xFFFFFFFF = 0x10000000)
    ∧ (decode w = .instr .start ↔ w &&& 0xFFFFFFFF = 0x20000000)
    ∧ (decode w = .instr .eoi ↔ w &&& 0xFFFFFFFF = 0x30000000)
    ∧ (∀ count, decode w = .instr (.data count) ↔
        w &&& 0xFFFFFF00 = 0x30000000 ∧ count = w.setWidth 8 ∧ count ≠ 0)
    ∧ (decode w = .instr .ioerr ↔ w &&& 0xFFFFFFFF = 0x40000000)
    ∧ (decode w = .instr .rdstat ↔ w &&& 0xFFFFFFFF = 0x50000000)
    ∧ (∀ idx, decode w = .instr (.rddig idx) ↔ w &&& 0xFFFFFFF8 = 0x60000000 ∧ idx = w.setWidth 3)
    ∧ ((w >>> 28).toNat = 0 ∨ 7 ≤ (w >>> 28).toNat → ∃ why, decode w = .illegal why)

/-! ### The step -/

/-- A step on a request whose word decodes to `i` is `exec i`, with the request's payload on the lanes and the request
taken off the host's list (R52, R109). -/
def Obligations.StepRunsTheDecodedCommand : Prop :=
  ∀ (s : State) (r : Request) (rest : List HostEvent) (i : Instr),
    s.inputs = .request r :: rest → decode r.cmd = .instr i →
    step s = exec i { s with payload := r.payload, inputs := rest }

/-- A word whose OP is reserved is rejected with ILLEGAL (3), and no state but ERR changes (R60). -/
def Obligations.ReservedOpcodeIsRejected : Prop :=
  ∀ (s : State) (r : Request) (rest : List HostEvent),
    s.inputs = .request r :: rest →
    ((r.cmd >>> 28).toNat = 0 ∨ 7 ≤ (r.cmd >>> 28).toNat) →
    step s = .next { s with
      err := if s.phase = .faulted then s.err else .illegal
      resp := some ⟨3, 0⟩
      payload := r.payload
      inputs := rest }

/-- A word whose OP is assigned and one of whose reserved-zero bits is 1 is treated the same; 0x10000001 is not INIT and
0x60000008 is not RDDIG 0 (R61). -/
def Obligations.ReservedBitIsRejected : Prop :=
  (∀ (s : State) (r : Request) (rest : List HostEvent),
    s.inputs = .request r :: rest →
    (((r.cmd >>> 28).toNat ∈ [1, 2, 4, 5] ∧ r.cmd &&& 0x0FFFFFFF ≠ 0)
      ∨ ((r.cmd >>> 28).toNat = 3 ∧ r.cmd &&& 0x0FFFFF00 ≠ 0)
      ∨ ((r.cmd >>> 28).toNat = 6 ∧ r.cmd &&& 0x0FFFFFF8 ≠ 0)) →
    step s = .next { s with
      err := if s.phase = .faulted then s.err else .illegal
      resp := some ⟨3, 0⟩
      payload := r.payload
      inputs := rest })
  ∧ (∃ why, decode 0x10000001 = .illegal why) ∧ (∃ why, decode 0x60000008 = .illegal why)

/-- ILLEGAL in every phase: ERR = 3 unless FAULTED, response (3, 0), nothing else (R119). -/
def Obligations.IllegalWordIsRejected : Prop :=
  ∀ (s : State) (r : Request) (rest : List HostEvent) (why : DecodeError),
    s.inputs = .request r :: rest → decode r.cmd = .illegal why →
    step s = .next { s with
      err := if s.phase = .faulted then s.err else .illegal
      resp := some ⟨3, 0⟩
      payload := r.payload
      inputs := rest }

/-- Reset puts every element at its value of R29, the architectural state INIT produces, and returns no response
(R29, R141). -/
def Obligations.ResetGivesTheResetValues : Prop :=
  ∀ (s : State) (rest : List HostEvent), s.inputs = .reset :: rest →
    ∃ t u, step s = .next t ∧ exec .init s = .next u ∧ t.SameCore u
      ∧ t.digest = (match s.variant with | .sha256 => .sha256 iv256 | .sha512 => .sha512 iv512)
      ∧ t.buf = List.replicate (match s.variant with | .sha256 => 64 | .sha512 => 128) 0
      ∧ t.fill = 0 ∧ t.phase = .empty ∧ t.msgLen = 0 ∧ t.err = .ok
      ∧ t.resp = none ∧ t.inputs = rest

/-- Reset during a command abandons it: no response, and the state after reset whatever the command (R142). -/
def Obligations.ResetDuringACommandAbandonsIt : Prop :=
  ∀ (s : State) (r : Request) (rest : List HostEvent), s.inputs = .resetDuring r :: rest →
    ∃ t, step s = .next t ∧ t.SameCore (State.resetOf s.variant) ∧ t.resp = none ∧ t.inputs = rest

/-- With no host event the core keeps all its state (R139, R148). That the port then shows no response is the model's own
(log entry 3). -/
def Obligations.IdleCoreKeepsItsState : Prop :=
  ∀ s : State, s.inputs = [] → step s = .next { s with resp := none }

/-- The core never stops: every step answers a next state (R132, R148). -/
def Obligations.StepAlwaysAnswers : Prop := ∀ s : State, ∃ t, step s = .next t

/-- Each request gets one response. Its code is the first reason that applies: ILLEGAL, then BAD_STATE, then CONTRACT, then
IO_FAULT of a legal IOERR, else 0; its data word is the value read by RDSTAT or an accepted RDDIG, and 0 otherwise
(R53, R131). -/
def Obligations.ResponseOfEveryRequest : Prop :=
  ∀ (s : State) (r : Request) (rest : List HostEvent), s.inputs = .request r :: rest →
    ∃ t, step s = .next t ∧ t.inputs = rest ∧ t.resp = some (match decode r.cmd with
      | .illegal _ => ⟨3, 0⟩
      | .instr .init => ⟨0, 0⟩
      | .instr .start => if s.phase = .empty then ⟨0, 0⟩ else ⟨4, 0⟩
      | .instr (.data n) =>
        if s.phase = .accum then (if blockBytes s.variant - s.fill.toNat < n.toNat then ⟨2, 0⟩ else ⟨0, 0⟩)
        else ⟨4, 0⟩
      | .instr .eoi => if s.phase = .accum then ⟨0, 0⟩ else ⟨4, 0⟩
      | .instr .ioerr => if s.phase = .accum then ⟨1, 0⟩ else ⟨4, 0⟩
      | .instr .rdstat => ⟨0, (statusWord s).zeroExtend 64⟩
      | .instr (.rddig k) => if s.phase = .done then ⟨0, s.digest.word k⟩ else ⟨4, 0⟩)

/-! ### The commands -/

/-- INIT: every element at its reset value, response (0, 0), in every phase; the same state as reset; twice is the same as
once; the only way out of DONE and FAULTED; RDSTAT then returns 0x00000000 or 0x00010000 (R110). -/
def Obligations.InitReinitializes : Prop :=
  ∀ s : State, ∃ t u, exec .init s = .next t
    ∧ t = { s with
        digest := (match s.variant with | .sha256 => .sha256 iv256 | .sha512 => .sha512 iv512)
        buf := List.replicate (match s.variant with | .sha256 => 64 | .sha512 => 128) 0
        fill := 0
        phase := .empty
        msgLen := 0
        err := .ok
        resp := some ⟨0, 0⟩ }
    ∧ t.SameCore (State.resetOf s.variant)
    ∧ exec .init t = .next t
    ∧ (∀ i v, i ≠ .init → (s.phase = .done ∨ s.phase = .faulted) → exec i s = .next v → v.phase = s.phase)
    ∧ exec .rdstat t = .next u
    ∧ u.resp = some ⟨0, match s.variant with | .sha256 => 0x00000000 | .sha512 => 0x00010000⟩

/-- START: in EMPTY, MSG_LEN = be_64(PL[0..7]) and PHASE = ACCUM; elsewhere BAD_STATE (R56, R111). -/
def Obligations.StartLoadsTheLength : Prop :=
  ∀ s : State,
    (s.phase = .empty → exec .start s = .next { s with
      msgLen := lane s.payload 0 ++ lane s.payload 1 ++ lane s.payload 2 ++ lane s.payload 3
        ++ lane s.payload 4 ++ lane s.payload 5 ++ lane s.payload 6 ++ lane s.payload 7
      phase := .accum
      resp := some ⟨0, 0⟩ })
    ∧ (s.phase ≠ .empty → exec .start s = .next { s with
      err := if s.phase = .faulted then s.err else .badState
      resp := some ⟨4, 0⟩ })

/-- DATA n: in ACCUM, n ≤ B − FILL bytes go to BUF[FILL..FILL+n−1]; a full buffer is compressed and emptied; n > B − FILL is
the fatal contract violation, with no byte taken; outside ACCUM, BAD_STATE. The same bytes in two DATA commands or in one
give the same state (R82, R83, R113, R128). -/
def Obligations.DataDeliversBytes : Prop :=
  (∀ (s : State) (n : BitVec 8), n ≠ 0 → s.buf.length = blockBytes s.variant →
    (s.phase = .accum → s.fill.toNat + n.toNat < blockBytes s.variant →
      exec (.data n) s = .next { s with
        buf := s.buf.take s.fill.toNat ++ (List.range n.toNat).map (lane s.payload)
          ++ s.buf.drop (s.fill.toNat + n.toNat)
        fill := s.fill + n
        resp := some ⟨0, 0⟩ })
    ∧ (s.phase = .accum → s.fill.toNat + n.toNat = blockBytes s.variant →
      exec (.data n) s = .next { s with
        buf := s.buf.take s.fill.toNat ++ (List.range n.toNat).map (lane s.payload)
        digest := compress s.digest (s.buf.take s.fill.toNat ++ (List.range n.toNat).map (lane s.payload))
        fill := 0
        resp := some ⟨0, 0⟩ })
    ∧ (s.phase = .accum → blockBytes s.variant < s.fill.toNat + n.toNat →
      exec (.data n) s = .next { s with err := .contract, phase := .faulted, resp := some ⟨2, 0⟩ })
    ∧ (s.phase ≠ .accum → exec (.data n) s = .next { s with
      err := if s.phase = .faulted then s.err else .badState
      resp := some ⟨4, 0⟩ }))
  ∧ (∀ (s : State) (a b : BitVec 8) (p q : List Byte), s.phase = .accum →
    s.buf.length = blockBytes s.variant → a ≠ 0 → b ≠ 0 →
    s.fill.toNat + a.toNat + b.toNat ≤ blockBytes s.variant →
    ∃ t u v, exec (.data a) { s with payload := p } = .next t
      ∧ exec (.data b) { t with payload := q } = .next u
      ∧ exec (.data (a + b)) { s with
          payload := (List.range a.toNat).map (lane p) ++ (List.range b.toNat).map (lane q) } = .next v
      ∧ u.SameCore v ∧ u.resp = v.resp)

/-- EOI in ACCUM with FILL < LB: one compression, of the valid bytes, 0x80, zeros and the length; with FILL ≥ LB: two,
the second block holding only zeros and the length. Then FILL = 0 and PHASE = DONE; outside ACCUM, BAD_STATE
(R85, R87, R90, R114). -/
def Obligations.EoiPadsAndFinishes : Prop :=
  ∀ s : State,
    (s.phase = .accum → s.fill.toNat < lowerBound s.variant →
      exec .eoi s = .next { s with
        digest := compress s.digest (s.buf.take s.fill.toNat ++ (0x80 : Byte)
          :: List.replicate (blockBytes s.variant - 9 - s.fill.toNat) 0 ++ bytesOfWord 8 (s.msgLen <<< 3))
        buf := s.buf.take s.fill.toNat ++ (0x80 : Byte)
          :: List.replicate (blockBytes s.variant - 9 - s.fill.toNat) 0 ++ bytesOfWord 8 (s.msgLen <<< 3)
        fill := 0
        phase := .done
        resp := some ⟨0, 0⟩ })
    ∧ (s.phase = .accum → lowerBound s.variant ≤ s.fill.toNat →
      exec .eoi s = .next { s with
        digest := compress
          (compress s.digest (s.buf.take s.fill.toNat ++ (0x80 : Byte)
            :: List.replicate (blockBytes s.variant - 1 - s.fill.toNat) 0))
          (List.replicate (blockBytes s.variant - 8) (0 : Byte) ++ bytesOfWord 8 (s.msgLen <<< 3))
        buf := List.replicate (blockBytes s.variant - 8) (0 : Byte) ++ bytesOfWord 8 (s.msgLen <<< 3)
        fill := 0
        phase := .done
        resp := some ⟨0, 0⟩ })
    ∧ (s.phase ≠ .accum → exec .eoi s = .next { s with
      err := if s.phase = .faulted then s.err else .badState
      resp := some ⟨4, 0⟩ })

/-- IOERR: in ACCUM, Fatal(IO_FAULT): PHASE = FAULTED, ERR = 1, nothing else; elsewhere BAD_STATE (R116). -/
def Obligations.IoerrFaultsTheCore : Prop :=
  ∀ s : State,
    (s.phase = .accum → exec .ioerr s = .next { s with err := .ioFault, phase := .faulted, resp := some ⟨1, 0⟩ })
    ∧ (s.phase ≠ .accum → exec .ioerr s = .next { s with
      err := if s.phase = .faulted then s.err else .badState
      resp := some ⟨4, 0⟩ })

/-- RDSTAT: the response carries the status word, field by field, and nothing changes; in a state that meets the invariant,
which every state between commands does, PHASE never reads 2 nor 5..7 and FILL reads below B (R23, R117). -/
def Obligations.RdstatReturnsTheStatusWord : Prop :=
  ∀ s : State, ∃ d : Word64, exec .rdstat s = .next { s with resp := some ⟨0, d⟩ }
    ∧ d.extractLsb' 0 3 = (match s.phase with | .empty => 0 | .accum => 1 | .final => 2 | .done => 3 | .faulted => 4)
    ∧ d.extractLsb' 3 1 = 0
    ∧ d.extractLsb' 4 4
      = (match s.err with | .ok => 0 | .ioFault => 1 | .contract => 2 | .illegal => 3 | .badState => 4)
    ∧ d.extractLsb' 8 8 = s.fill
    ∧ d.extractLsb' 16 1 = (match s.variant with | .sha256 => 0 | .sha512 => 1)
    ∧ d.extractLsb' 17 15 = 0
    ∧ d.extractLsb' 32 32 = 0
    ∧ (s.Inv → (d.extractLsb' 0 3).toNat ∈ [0, 1, 3, 4]
      ∧ (d.extractLsb' 8 8).toNat < (match s.variant with | .sha256 => 64 | .sha512 => 128))

/-- RDDIG i: in DONE the response carries H[i] zero-extended and nothing changes; elsewhere BAD_STATE with data 0 (R118). -/
def Obligations.RddigReturnsTheDigestWord : Prop :=
  ∀ (s : State) (i : BitVec 3),
    (s.phase = .done → exec (.rddig i) s = .next { s with resp := some ⟨0, match s.digest with
      | .sha256 h => BitVec.setWidth 64 (h[i.toNat]'i.isLt)
      | .sha512 h => h[i.toNat]'i.isLt⟩ })
    ∧ (s.phase ≠ .done → exec (.rddig i) s = .next { s with
      err := if s.phase = .faulted then s.err else .badState
      resp := some ⟨4, 0⟩ })

/-- The legality table of R112: in a phase the table marks "–" a command is rejected with BAD_STATE and changes nothing but
ERR; in a phase it marks "yes" the response is not BAD_STATE. -/
def Obligations.PhaseLegalityTable : Prop :=
  ∀ (i : Instr) (s : State), s.phase ≠ .final →
    ((i = .init ∨ i = .rdstat ∨ (i = .start ∧ s.phase = .empty)
        ∨ ((i = .eoi ∨ i = .ioerr ∨ ∃ n, i = .data n) ∧ s.phase = .accum)
        ∨ ((∃ k, i = .rddig k) ∧ s.phase = .done)) →
      ∃ t out, exec i s = .next t ∧ t.resp = some out ∧ out.errc ≠ 4)
    ∧ (¬ (i = .init ∨ i = .rdstat ∨ (i = .start ∧ s.phase = .empty)
        ∨ ((i = .eoi ∨ i = .ioerr ∨ ∃ n, i = .data n) ∧ s.phase = .accum)
        ∨ ((∃ k, i = .rddig k) ∧ s.phase = .done)) →
      exec i s = .next { s with
        err := if s.phase = .faulted then s.err else .badState
        resp := some ⟨4, 0⟩ })

/-! ### Errors -/

/-- Fatal(e): whenever a command answers with code 1 or 2, ERR holds the code, PHASE is FAULTED, the data word is 0 and
nothing else of the state has changed; and in FAULTED no RDDIG returns a word (R129). -/
def Obligations.FatalErrorsArePrecise : Prop :=
  (∀ (i : Instr) (s t : State) (out : Response), exec i s = .next t → t.resp = some out →
    (out.errc = 1 ∨ out.errc = 2) →
    out.data = 0 ∧ t = { s with
      err := if out.errc = 1 then .ioFault else .contract
      phase := .faulted
      resp := some out })
  ∧ (∀ (s : State) (k : BitVec 3), s.phase = .faulted → exec (.rddig k) s = .next { s with resp := some ⟨4, 0⟩ })

/-- Reject(e): a step that answers with code 3 or 4 changes nothing but ERR, and ERR only outside FAULTED (R130). -/
def Obligations.RejectedCommandsAreNotIssued : Prop :=
  ∀ (s t : State) (r : Request) (rest : List HostEvent) (out : Response),
    s.inputs = .request r :: rest → step s = .next t → t.resp = some out →
    (out.errc = 3 ∨ out.errc = 4) →
    out.data = 0 ∧ t = { s with
      err := if s.phase = .faulted then s.err else (if out.errc = 3 then .illegal else .badState)
      resp := some out
      payload := r.payload
      inputs := rest }

/-- ERR: a rejected or fatal command writes its code unless the core was FAULTED when it started; a command without
error leaves ERR; INIT and reset clear it (R22). -/
def Obligations.ErrHoldsTheMostRecentError : Prop :=
  (∀ (s t : State) (r : Request) (rest : List HostEvent) (out : Response),
    s.inputs = .request r :: rest → step s = .next t → t.resp = some out →
    (decode r.cmd = .instr .init → t.err = .ok)
    ∧ (decode r.cmd ≠ .instr .init → out.errc = 0 → t.err = s.err)
    ∧ (out.errc ≠ 0 → s.phase ≠ .faulted → t.err.code = out.errc)
    ∧ (out.errc ≠ 0 → s.phase = .faulted → t.err = s.err))
  ∧ (∀ (s t : State) (rest : List HostEvent), s.inputs = .reset :: rest → step s = .next t → t.err = .ok)

/-- FAULTED is left by INIT and reset alone: on any other event the whole architectural state stays, ERR included
(R133). -/
def Obligations.FaultedIsLeftOnlyByInit : Prop :=
  ∀ s t : State, s.phase = .faulted → step s = .next t →
    (∃ rest, s.inputs = .reset :: rest) ∨ (∃ r rest, s.inputs = .resetDuring r :: rest)
    ∨ (∃ r rest, s.inputs = .request r :: rest ∧ decode r.cmd = .instr .init ∧ t.phase = .empty)
    ∨ t.SameCore s

/-- DONE is left by INIT and reset alone, and H does not change in it; START, DATA, EOI and IOERR are rejected with
BAD_STATE (R86). -/
def Obligations.DoneKeepsTheDigest : Prop :=
  (∀ s t : State, s.phase = .done → step s = .next t →
    (∃ rest, s.inputs = .reset :: rest) ∨ (∃ r rest, s.inputs = .resetDuring r :: rest)
    ∨ (∃ r rest, s.inputs = .request r :: rest ∧ decode r.cmd = .instr .init ∧ t.phase = .empty)
    ∨ (t.phase = .done ∧ t.digest = s.digest))
  ∧ (∀ (i : Instr) (s : State), s.phase = .done → (i = .start ∨ (∃ n, i = .data n) ∨ i = .eoi ∨ i = .ioerr) →
    exec i s = .next { s with err := .badState, resp := some ⟨4, 0⟩ })
  ∧ (∀ s : State, s.phase = .done → ∃ t, exec .init s = .next t ∧ t.phase = .empty)
  ∧ (∀ (s : State) (rest : List HostEvent), s.phase = .done → s.inputs = .reset :: rest →
    ∃ t, step s = .next t ∧ t.phase = .empty)

/-! ### Frames -/

/-- The reads: RDSTAT changes only the response; RDDIG changes only the response, and ERR when it is rejected
(R48, R117, R118). -/
def Obligations.FrameOfTheReads : Prop :=
  (∀ s t : State, exec .rdstat s = .next t → ∃ out, t = { s with resp := out })
  ∧ (∀ (s t : State) (k : BitVec 3), exec (.rddig k) s = .next t →
    ∃ out e, t = { s with resp := out, err := e } ∧ (s.phase = .done → e = s.err))

/-- START writes MSG_LEN, PHASE, ERR and the response only; IOERR writes PHASE, ERR and the response only
(R111, R116). -/
def Obligations.FrameOfStartAndIoerr : Prop :=
  (∀ s t : State, exec .start s = .next t →
    ∃ len p e out, t = { s with msgLen := len, phase := p, err := e, resp := out })
  ∧ (∀ s t : State, exec .ioerr s = .next t → ∃ p e out, t = { s with phase := p, err := e, resp := out })

/-- DATA leaves MSG_LEN, the port and every byte of BUF outside BUF[FILL..FILL+COUNT−1] unchanged (R17, R113). -/
def Obligations.FrameOfData : Prop :=
  ∀ (s t : State) (n : BitVec 8), exec (.data n) s = .next t →
    (∃ d b f p e out, t = { s with digest := d, buf := b, fill := f, phase := p, err := e, resp := out })
    ∧ (∀ j, (j < s.fill.toNat ∨ s.fill.toNat + n.toNat ≤ j) → t.buf[j]? = s.buf[j]?)
    ∧ t.buf.length = s.buf.length

/-- EOI leaves MSG_LEN, VARIANT and the port unchanged; INIT leaves VARIANT and the port unchanged (R110, R114). -/
def Obligations.FrameOfEoiAndInit : Prop :=
  (∀ s t : State, exec .eoi s = .next t →
    t.variant = s.variant
    ∧ ∃ d b f p e out, t = { s with digest := d, buf := b, fill := f, phase := p, err := e, resp := out })
  ∧ (∀ s t : State, exec .init s = .next t →
    t.variant = s.variant ∧ t.payload = s.payload ∧ t.inputs = s.inputs)

/-- H is written only by compressions, which DATA and EOI run, and by the IV of INIT or reset (R16). -/
def Obligations.DigestIsWrittenOnlyByCompressionAndInit : Prop :=
  ∀ s t : State, step s = .next t →
    t.digest = s.digest
    ∨ (t.digest = Digest.initial s.variant
      ∧ ((∃ rest, s.inputs = .reset :: rest) ∨ (∃ r rest, s.inputs = .resetDuring r :: rest)
        ∨ ∃ r rest, s.inputs = .request r :: rest ∧ decode r.cmd = .instr .init))
    ∨ (∃ r rest n, s.inputs = .request r :: rest ∧ decode r.cmd = .instr (.data n)
      ∧ s.phase = .accum ∧ t.digest = compress s.digest t.buf)
    ∨ (∃ r rest, s.inputs = .request r :: rest ∧ decode r.cmd = .instr .eoi ∧ s.phase = .accum
      ∧ t.digest = compressAll s.digest (pad s.variant s.buf s.fill.toNat s.msgLen))

/-- MSG_LEN is written only by START and cleared by INIT and reset (R21). -/
def Obligations.MsgLenIsWrittenOnlyByStart : Prop :=
  ∀ (i : Instr) (s t : State), exec i s = .next t →
    t.msgLen = s.msgLen ∨ (i = .start ∧ s.phase = .empty ∧ t.phase = .accum) ∨ (i = .init ∧ t.msgLen = 0)

/-- The VARIANT bit is hardwired: no step changes it, and it is 0 in sha256_core and 1 in sha512_core (R24). -/
def Obligations.VariantIsHardwired : Prop :=
  (∀ s t : State, step s = .next t → t.variant = s.variant)
  ∧ (∀ s : State, (statusWord s).extractLsb' 16 1 = (match s.digest with | .sha256 _ => 0 | .sha512 _ => 1))

/-- Payload lanes a command does not use never reach the state or the response: all of PL but PL[0..7] for START and
PL[0..COUNT−1] for DATA (R62). -/
def Obligations.UnusedPayloadIsIgnored : Prop :=
  ∀ (i : Instr) (s t : State) (p q : List Byte),
    (∀ j, j < (match i with
        | .start => 8
        | .data n => n.toNat
        | .init => 0 | .eoi => 0 | .ioerr => 0 | .rdstat => 0 | .rddig _ => 0) → lane p j = lane q j) →
    exec i { s with payload := p } = .next t →
    exec i { s with payload := q } = .next { t with payload := q }

/-! ### Invariants -/

/-- Both instances meet the invariant right after reset (R29). -/
def Obligations.InvHoldsAfterReset : Prop :=
  (State.resetOf .sha256).Inv ∧ (State.resetOf .sha512).Inv ∧ State.reset.Inv

/-- Every step keeps the invariant: BUF has B bytes, FILL < B, PHASE is not FINAL, EMPTY means the reset values, DONE means
FILL = 0, and ERR is fatal exactly in FAULTED (R18, R20, R22). -/
def Obligations.StepKeepsInv : Prop :=
  ∀ s t : State, s.Inv → step s = .next t → t.Inv

/-! ### The message -/

/-- START from EMPTY begins a message of which nothing is absorbed yet (R20, R111). -/
def Obligations.StartBeginsAnEmptyMessage : Prop :=
  ∀ s : State, s.Inv → s.phase = .empty →
    ∃ t, exec .start s = .next t ∧ t.Absorbed [] ∧ t.msgLen = startLength s

/-- DATA appends exactly its bytes to the message, whatever the chunking: the full blocks are compressed in order and the
rest is in BUF (R20, R82, R83). -/
def Obligations.DataAbsorbsItsBytes : Prop :=
  ∀ (s : State) (m : List Byte) (n : BitVec 8), s.Absorbed m → n ≠ 0 →
    s.fill.toNat + n.toNat ≤ blockBytes s.variant →
    ∃ t, exec (.data n) s = .next t ∧ t.Absorbed (m ++ (List.range n.toNat).map (lane s.payload))
      ∧ t.msgLen = s.msgLen

/-- EOI ends in DONE with the digest of the padded message: the whole message, 0x80, zeros and the length field, cut into
blocks and compressed from the IV (R85, R93). -/
def Obligations.EoiGivesTheMessageDigest : Prop :=
  ∀ (s : State) (m : List Byte), s.Absorbed m →
    ∃ t, exec .eoi s = .next t ∧ t.phase = .done ∧ t.digest = messageDigest s.variant m s.msgLen

/-- The padded message is a multiple of B bytes; in blocks, floor(L/B) + (1 if L mod B < LB else 2) (R93). -/
def Obligations.PaddedMessageIsWholeBlocks : Prop :=
  ∀ (v : Variant) (m : List Byte) (len : Word64),
    (paddedMessage v m len).length
      = blockBytes v * (m.length / blockBytes v + (if m.length % blockBytes v < lowerBound v then 1 else 2))

/-- Without spillover: one block, byte by byte, the length field big-endian in the last 8 bytes (R41, R88). -/
def Obligations.PadWithoutSpillover : Prop :=
  ∀ (v : Variant) (buf : List Byte) (fill : Nat) (len : Word64),
    buf.length = blockBytes v → fill < lowerBound v →
    ∃ blk, pad v buf fill len = [blk] ∧ blk.length = blockBytes v
      ∧ ∀ j, j < blockBytes v → blk.getD j 0 =
        if j < fill then buf.getD j 0
        else if j = fill then 0x80
        else if j < blockBytes v - 8 then 0
        else (len * 8).extractLsb' (8 * (blockBytes v - 1 - j)) 8

/-- With spillover: the bytes, 0x80 and zeros, and no length; then a block of zeros but for the same length field; both are
compressed, first then second (R89). -/
def Obligations.PadWithSpillover : Prop :=
  ∀ (v : Variant) (buf : List Byte) (fill : Nat) (len : Word64),
    buf.length = blockBytes v → lowerBound v ≤ fill → fill < blockBytes v →
    ∃ blk blk2, pad v buf fill len = [blk, blk2] ∧ blk.length = blockBytes v ∧ blk2.length = blockBytes v
      ∧ (∀ j, j < blockBytes v → blk.getD j 0 =
        if j < fill then buf.getD j 0 else if j = fill then 0x80 else 0)
      ∧ (∀ j, j < blockBytes v → blk2.getD j 0 =
        if j < blockBytes v - 8 then 0 else (len * 8).extractLsb' (8 * (blockBytes v - 1 - j)) 8)
      ∧ (∀ d, compressAll d (pad v buf fill len) = compress (compress d blk) blk2)

/-- The length field is (len · 8) mod 2^64, big-endian in the last 8 bytes of the final block: exactly len · 8 below 2^61,
and otherwise bits [60:0] of len shifted left by 3, with len[63:61] dropped (R41, R90, R91). -/
def Obligations.LengthFieldKeepsTheLow64Bits : Prop :=
  (∀ len : Word64,
    (bitLength len).toNat = len.toNat * 8 % 2 ^ 64
    ∧ (len.toNat < 2 ^ 61 → (bitLength len).toNat = len.toNat * 8)
    ∧ bitLength len = len.extractLsb' 0 61 ++ (0 : BitVec 3)
    ∧ (∀ j, j < 8 → (lengthField len).getD j 0 = (bitLength len).extractLsb' (56 - 8 * j) 8))
  ∧ (∀ (v : Variant) (buf : List Byte) (fill : Nat) (len : Word64),
    buf.length = blockBytes v → fill < blockBytes v →
    ((pad v buf fill len).getLastD []).drop (blockBytes v - 8) = lengthField len
      ∧ ((pad v buf fill len).getLastD []).length = blockBytes v)
  ∧ lengthField (BitVec.ofNat 64 (2 ^ 61 + 5)) = [0, 0, 0, 0, 0, 0, 0, 0x28]
  ∧ lengthField (BitVec.ofNat 64 (2 ^ 64 - 1)) = [0xFF, 0xFF, 0xFF, 0xFF, 0xFF, 0xFF, 0xFF, 0xF8]

/-- A START request carries its length: its word decodes to START and START loads the same number (R43, R64). -/
def Obligations.StartRequestCarriesItsLength : Prop :=
  ∀ (s : State) (len : Word64), s.phase = .empty →
    decode (startRequest len).cmd = .instr .start
    ∧ ∃ t, exec .start { s with payload := (startRequest len).payload } = .next t ∧ t.msgLen = len

/-! ### The datapath -/

/-- add_modulo is addition modulo 2^w, with the carry discarded; a chain's value does not depend on grouping or order
(R66). -/
def Obligations.AddModuloWraps : Prop :=
  ∀ (w : Nat) (a b c : BitVec w), (addModulo a b).toNat = (a.toNat + b.toNat) % 2 ^ w
    ∧ addModulo (addModulo a b) c = addModulo a (addModulo b c) ∧ addModulo a b = addModulo b a

/-- word_from_bytes on exactly NB bytes is their big-endian value, and on any other length it faults (R67, R68). -/
def Obligations.WordFromBytesIsBigEndian : Prop :=
  ∀ (nb : Nat) (bs : List Byte),
    (bs.length = nb → ∃ x : BitVec (8 * nb), wordFromBytes (8 * nb) bs = .ok x
      ∧ x.toNat = ((List.range nb).map fun j => (bs.getD j 0).toNat * 2 ^ (8 * (nb - 1 - j))).sum)
    ∧ (bs.length ≠ nb → wordFromBytes (8 * nb) bs = .error .wordLength)

/-- Bit i of rotr(x, n) is bit (i + n) mod w of x; so rotation by 0 or by w is x (R70). -/
def Obligations.RotationMovesEachBit : Prop :=
  ∀ (w : Nat) (x : BitVec w) (n : Nat), n ≤ w →
    (∀ i, i < w → (rotr x n).getLsbD i = x.getLsbD ((i + n) % w))
    ∧ rotr x 0 = x ∧ rotr x w = x

/-- x >> n is floor(x / 2^n), and its n most significant bits are 0 (R71). -/
def Obligations.ShiftIsLogical : Prop :=
  ∀ (w : Nat) (x : BitVec w) (n : Nat),
    (shr x n).toNat = x.toNat / 2 ^ n ∧ (∀ i, w ≤ i + n → (shr x n).getLsbD i = false)

/-- Ch takes y's bit where x has 1 and z's where x has 0; Maj takes the majority; with the corner cases of both
(R72, R73). -/
def Obligations.ChooseAndMajority : Prop :=
  ∀ (w : Nat) (x y z : BitVec w),
    (∀ i, i < w → (ch x y z).getLsbD i = if x.getLsbD i then y.getLsbD i else z.getLsbD i)
    ∧ (∀ i, i < w → ((maj x y z).getLsbD i = true ↔
      2 ≤ (x.getLsbD i).toNat + (y.getLsbD i).toNat + (z.getLsbD i).toNat))
    ∧ ch (BitVec.allOnes w) y z = y ∧ ch 0 y z = z
    ∧ maj x x z = x ∧ maj 0 (BitVec.allOnes w) z = z

/-- The generic sigmas, bit by bit, a bit beyond the word being 0, and their corner cases: of 0 they are 0; of all ones a
big sigma is all ones and a little sigma all ones shifted (R74, R75). -/
def Obligations.SigmasBitByBit : Prop :=
  ∀ (w : Nat) (t : Triple) (x : BitVec w), t.inRange w = true →
    (∀ i, i < w → (bigSigma t x).getLsbD i =
      ((x.getLsbD ((i + t.a) % w) ^^ x.getLsbD ((i + t.b) % w)) ^^ x.getLsbD ((i + t.c) % w)))
    ∧ (∀ i, i < w → (littleSigma t x).getLsbD i =
      ((x.getLsbD ((i + t.a) % w) ^^ x.getLsbD ((i + t.b) % w)) ^^ x.getLsbD (i + t.c)))
    ∧ bigSigma t (0 : BitVec w) = 0 ∧ littleSigma t (0 : BitVec w) = 0
    ∧ bigSigma t (BitVec.allOnes w) = BitVec.allOnes w
    ∧ littleSigma t (BitVec.allOnes w) = BitVec.allOnes w >>> t.c

/-- The bound sigma functions of both instances: their amounts, where a round and a schedule step use them, their corner
cases and their examples (R76 to R79). -/
def Obligations.BoundSigmas : Prop :=
  (∀ x : BitVec 32,
    bigSigma sha256Params.bigSigma0 x = rotr x 2 ^^^ rotr x 13 ^^^ rotr x 22
    ∧ bigSigma sha256Params.bigSigma1 x = rotr x 6 ^^^ rotr x 11 ^^^ rotr x 25
    ∧ littleSigma sha256Params.littleSigma0 x = rotr x 7 ^^^ rotr x 18 ^^^ shr x 3
    ∧ littleSigma sha256Params.littleSigma1 x = rotr x 17 ^^^ rotr x 19 ^^^ shr x 10)
  ∧ (∀ x : BitVec 64,
    bigSigma sha512Params.bigSigma0 x = rotr x 28 ^^^ rotr x 34 ^^^ rotr x 39
    ∧ bigSigma sha512Params.bigSigma1 x = rotr x 14 ^^^ rotr x 18 ^^^ rotr x 41
    ∧ littleSigma sha512Params.littleSigma0 x = rotr x 1 ^^^ rotr x 8 ^^^ shr x 7
    ∧ littleSigma sha512Params.littleSigma1 x = rotr x 19 ^^^ rotr x 61 ^^^ shr x 6)
  ∧ (∀ (k wi : BitVec 32) (v : Working 32) (ws : List (BitVec 32)),
    temp1 sha256Params k wi v = v.h + (rotr v.e 6 ^^^ rotr v.e 11 ^^^ rotr v.e 25) + ch v.e v.f v.g + k + wi
    ∧ temp2 sha256Params v = (rotr v.a 2 ^^^ rotr v.a 13 ^^^ rotr v.a 22) + maj v.a v.b v.c
    ∧ nextWord sha256Params ws = ws.getD (ws.length - 16) 0
      + (rotr (ws.getD (ws.length - 15) 0) 7 ^^^ rotr (ws.getD (ws.length - 15) 0) 18
        ^^^ shr (ws.getD (ws.length - 15) 0) 3)
      + ws.getD (ws.length - 7) 0
      + (rotr (ws.getD (ws.length - 2) 0) 17 ^^^ rotr (ws.getD (ws.length - 2) 0) 19
        ^^^ shr (ws.getD (ws.length - 2) 0) 10))
  ∧ (∀ (k wi : BitVec 64) (v : Working 64) (ws : List (BitVec 64)),
    temp1 sha512Params k wi v = v.h + (rotr v.e 14 ^^^ rotr v.e 18 ^^^ rotr v.e 41) + ch v.e v.f v.g + k + wi
    ∧ temp2 sha512Params v = (rotr v.a 28 ^^^ rotr v.a 34 ^^^ rotr v.a 39) + maj v.a v.b v.c
    ∧ nextWord sha512Params ws = ws.getD (ws.length - 16) 0
      + (rotr (ws.getD (ws.length - 15) 0) 1 ^^^ rotr (ws.getD (ws.length - 15) 0) 8
        ^^^ shr (ws.getD (ws.length - 15) 0) 7)
      + ws.getD (ws.length - 7) 0
      + (rotr (ws.getD (ws.length - 2) 0) 19 ^^^ rotr (ws.getD (ws.length - 2) 0) 61
        ^^^ shr (ws.getD (ws.length - 2) 0) 6))
  ∧ bigSigma sha256Params.bigSigma0 0#32 = 0#32 ∧ bigSigma sha256Params.bigSigma0 0xFFFFFFFF#32 = 0xFFFFFFFF#32
  ∧ bigSigma sha256Params.bigSigma1 0#32 = 0#32 ∧ bigSigma sha256Params.bigSigma1 0xFFFFFFFF#32 = 0xFFFFFFFF#32
  ∧ littleSigma sha256Params.littleSigma0 0#32 = 0#32
  ∧ littleSigma sha256Params.littleSigma0 0xFFFFFFFF#32 = 0x1FFFFFFF#32
  ∧ littleSigma sha256Params.littleSigma1 0#32 = 0#32
  ∧ littleSigma sha256Params.littleSigma1 0xFFFFFFFF#32 = 0x003FFFFF#32
  ∧ bigSigma sha512Params.bigSigma0 0#64 = 0#64
  ∧ bigSigma sha512Params.bigSigma0 0xFFFFFFFFFFFFFFFF#64 = 0xFFFFFFFFFFFFFFFF#64
  ∧ bigSigma sha512Params.bigSigma1 0#64 = 0#64
  ∧ bigSigma sha512Params.bigSigma1 0xFFFFFFFFFFFFFFFF#64 = 0xFFFFFFFFFFFFFFFF#64
  ∧ littleSigma sha512Params.littleSigma0 0#64 = 0#64
  ∧ littleSigma sha512Params.littleSigma0 0xFFFFFFFFFFFFFFFF#64 = 0x01FFFFFFFFFFFFFF#64
  ∧ littleSigma sha512Params.littleSigma1 0#64 = 0#64
  ∧ littleSigma sha512Params.littleSigma1 0xFFFFFFFFFFFFFFFF#64 = 0x03FFFFFFFFFFFFFF#64
  ∧ bigSigma sha256Params.bigSigma0 1#32 = 0x40080400#32 ∧ bigSigma sha256Params.bigSigma0 0x6A09E667#32 = 0xCE20B47E#32
  ∧ bigSigma sha512Params.bigSigma0 1#64 = 0x0000001042000000#64
  ∧ bigSigma sha512Params.bigSigma0 0x6A09E667F3BCC908#64 = 0x08C4DB56AAC80C2A#64
  ∧ bigSigma sha256Params.bigSigma1 1#32 = 0x04200080#32 ∧ bigSigma sha256Params.bigSigma1 0x510E527F#32 = 0x3587272B#32
  ∧ bigSigma sha512Params.bigSigma1 1#64 = 0x0004400000800000#64
  ∧ bigSigma sha512Params.bigSigma1 0x510E527FADE682D1#64 = 0x9427E33BB5C9DBCA#64
  ∧ littleSigma sha256Params.littleSigma0 1#32 = 0x02004000#32
  ∧ littleSigma sha256Params.littleSigma0 0x80000000#32 = 0x11002000#32
  ∧ littleSigma sha512Params.littleSigma0 1#64 = 0x8100000000000000#64
  ∧ littleSigma sha512Params.littleSigma0 0x8000000000000000#64 = 0x4180000000000000#64
  ∧ littleSigma sha256Params.littleSigma1 1#32 = 0x0000A000#32
  ∧ littleSigma sha256Params.littleSigma1 0x80000000#32 = 0x00205000#32
  ∧ littleSigma sha512Params.littleSigma1 1#64 = 0x0000200000000008#64
  ∧ littleSigma sha512Params.littleSigma1 0x8000000000000000#64 = 0x0200100000000004#64

/-- The schedule has R words; the first 16 are the block's big-endian words, by word_from_bytes on slices of exactly NB
bytes, and each later one is w[i−16] + σ0(w[i−15]) + w[i−7] + σ1(w[i−2]) (R97, R98). -/
def Obligations.ScheduleRecurrence : Prop :=
  ∀ (nb : Nat) (p : Params (8 * nb)) (blk : List Byte), blk.length = 16 * nb → 16 ≤ p.rounds →
    (schedule p blk).length = p.rounds
    ∧ (∀ j, j < 16 →
      wordFromBytes (8 * nb) ((blk.drop (j * nb)).take nb) = .ok ((schedule p blk).getD j 0))
    ∧ (∀ i, 16 ≤ i → i < p.rounds → (schedule p blk).getD i 0 =
      (schedule p blk).getD (i - 16) 0 + littleSigma p.littleSigma0 ((schedule p blk).getD (i - 15) 0)
        + (schedule p blk).getD (i - 7) 0 + littleSigma p.littleSigma1 ((schedule p blk).getD (i - 2) 0))

/-- A compression: from H, one round per pair of a K entry and a schedule word, each pair once and in order, with the
assignments of a round made one after another as R99 writes them; then each word of H plus its working variable. The
tables of both instances have exactly R entries (R99, R106). -/
def Obligations.CompressionIsTheRoundLoop : Prop :=
  sha256Params.k.length = sha256Params.rounds ∧ sha512Params.k.length = sha512Params.rounds
  ∧ ∀ (w : Nat) (p : Params w) (hs : Vector (BitVec w) 8) (blk : List Byte),
    16 ≤ p.rounds → p.k.length = p.rounds →
    ∃ v : Working w,
      v = (List.zip p.k (schedule p blk)).foldl (fun v kw =>
        let t1 := v.h + bigSigma p.bigSigma1 v.e + ch v.e v.f v.g + kw.1 + kw.2
        let t2 := bigSigma p.bigSigma0 v.a + maj v.a v.b v.c
        let v := { v with h := v.g }
        let v := { v with g := v.f }
        let v := { v with f := v.e }
        let v := { v with e := v.d + t1 }
        let v := { v with d := v.c }
        let v := { v with c := v.b }
        let v := { v with b := v.a }
        { v with a := t1 + t2 }) ⟨hs[0], hs[1], hs[2], hs[3], hs[4], hs[5], hs[6], hs[7]⟩
      ∧ compressWords p hs blk = #v[hs[0] + v.a, hs[1] + v.b, hs[2] + v.c, hs[3] + v.d,
        hs[4] + v.e, hs[5] + v.f, hs[6] + v.g, hs[7] + v.h]

/-- Round 0 of SHA-256 on the padded block of "abc": the working variables of 95_test_vectors.md section 4.1. -/
def Obligations.FirstRoundExample : Prop :=
  afterRounds sha256Params (schedule sha256Params ([0x61, 0x62, 0x63, 0x80] ++ List.replicate 59 0 ++ [0x18]))
      (workingOf iv256) 1
    = ⟨0x5D6AEBCD, 0x6A09E667, 0xBB67AE85, 0x3C6EF372, 0xFA2A4622, 0x510E527F, 0x9B05688C, 0x1F83D9AB⟩

/-- The table entries are the roots R107 says: with p_i the i-th prime, K256[i] and K512[i] are the first 32 and 64
fractional bits of the cube root of p_i, and IV256[i] and IV512[i] those of its square root. -/
def Obligations.ConstantsAreRootsOfPrimes : Prop :=
  let primes : List Nat := (List.range 410).filter (fun n => 2 ≤ n ∧ ∀ d < n, 2 ≤ d → n % d ≠ 0)
  (∀ i < 64, ∃ q < 8, (q * 2 ^ 32 + (k256.getD i 0).toNat) ^ 3 ≤ primes.getD i 0 * 2 ^ 96
      ∧ primes.getD i 0 * 2 ^ 96 < (q * 2 ^ 32 + (k256.getD i 0).toNat + 1) ^ 3)
  ∧ (∀ i < 80, ∃ q < 8, (q * 2 ^ 64 + (k512.getD i 0).toNat) ^ 3 ≤ primes.getD i 0 * 2 ^ 192
      ∧ primes.getD i 0 * 2 ^ 192 < (q * 2 ^ 64 + (k512.getD i 0).toNat + 1) ^ 3)
  ∧ (∀ i < 8, ∃ q < 8, (q * 2 ^ 32 + (iv256.toList.getD i 0).toNat) ^ 2 ≤ primes.getD i 0 * 2 ^ 64
      ∧ primes.getD i 0 * 2 ^ 64 < (q * 2 ^ 32 + (iv256.toList.getD i 0).toNat + 1) ^ 2)
  ∧ (∀ i < 8, ∃ q < 8, (q * 2 ^ 64 + (iv512.toList.getD i 0).toNat) ^ 2 ≤ primes.getD i 0 * 2 ^ 128
      ∧ primes.getD i 0 * 2 ^ 128 < (q * 2 ^ 64 + (iv512.toList.getD i 0).toNat + 1) ^ 2)
  ∧ k256.length = 64 ∧ k512.length = 80

/-! ### Observation and instances -/

/-- The rendering has 8 or 16 characters a word, 64 or 128 in all, each a lowercase hexadecimal digit, and it spells the
digest bytes, two digits a byte (R42, R120). -/
def Obligations.HexSpellsTheDigestBytes : Prop :=
  ∀ d : Digest,
    (digestBytes d).length = (match d with | .sha256 _ => 32 | .sha512 _ => 64)
    ∧ (hexChars d).length = (match d with | .sha256 _ => 64 | .sha512 _ => 128)
    ∧ hexChars d = (digestBytes d).flatMap (fun b => [hexDigit (b.toNat / 16), hexDigit (b.toNat % 16)])
    ∧ (∀ c ∈ hexChars d, c ∈ ['0', '1', '2', '3', '4', '5', '6', '7', '8', '9', 'a', 'b', 'c', 'd', 'e', 'f'])

/-- Only the two tuples of R7 give an instance, in its reset state; every other tuple is refused, and both admitted tuples
meet the conditions on a tuple (R8). -/
def Obligations.OnlyTheAdmittedTuplesRun : Prop :=
  instantiate 32 sha256Params = .next (State.resetOf .sha256)
  ∧ instantiate 64 sha512Params = .next (State.resetOf .sha512)
  ∧ (∀ p : Params 32, p ≠ sha256Params → instantiate 32 p = .refused .unadmittedTuple)
  ∧ (∀ p : Params 64, p ≠ sha512Params → instantiate 64 p = .refused .unadmittedTuple)
  ∧ (∀ (w : Nat) (p : Params w), w ≠ 32 → w ≠ 64 → instantiate w p = .refused .unadmittedTuple)
  ∧ sha256Params.WellFormed ∧ sha512Params.WellFormed

/-- How many compressions a command runs: none but for a DATA that fills the block (1) and an EOI (1 when FILL < LB, else
2); each is of a block of B bytes (R115, R149). -/
def Obligations.CompressionsOfEachCommand : Prop :=
  ∀ (i : Instr) (s t : State), s.buf.length = blockBytes s.variant → s.fill.toNat < blockBytes s.variant →
    i ≠ .init → exec i s = .next t →
    ∃ blocks, t.digest = compressAll s.digest blocks
      ∧ (∀ blk ∈ blocks, blk.length = blockBytes s.variant)
      ∧ blocks.length = compressionsRun i s
      ∧ compressionsRun i s = (match i with
        | .data n => if s.phase = .accum ∧ s.fill.toNat + n.toNat = blockBytes s.variant then 1 else 0
        | .eoi => if s.phase = .accum then
            (if s.fill.toNat < (match s.variant with | .sha256 => 56 | .sha512 => 112) then 1 else 2) else 0
        | .init => 0 | .start => 0 | .ioerr => 0 | .rdstat => 0 | .rddig _ => 0)
end

