-- ==== Sys2Proof/Laws/State.lean ====
section
/-! SUPPORT. One lemma per field per update of the state, and what each update does to the instance's VARIANT. -/

namespace Sys2Proof.Machine

@[simp] theorem respond_digest (e : ErrCode) (d : Word64) (s : State) :
    (respond e d s).digest = s.digest := rfl
@[simp] theorem respond_buf (e : ErrCode) (d : Word64) (s : State) :
    (respond e d s).buf = s.buf := rfl
@[simp] theorem respond_fill (e : ErrCode) (d : Word64) (s : State) :
    (respond e d s).fill = s.fill := rfl
@[simp] theorem respond_phase (e : ErrCode) (d : Word64) (s : State) :
    (respond e d s).phase = s.phase := rfl
@[simp] theorem respond_msgLen (e : ErrCode) (d : Word64) (s : State) :
    (respond e d s).msgLen = s.msgLen := rfl
@[simp] theorem respond_err (e : ErrCode) (d : Word64) (s : State) :
    (respond e d s).err = s.err := rfl
@[simp] theorem respond_payload (e : ErrCode) (d : Word64) (s : State) :
    (respond e d s).payload = s.payload := rfl
@[simp] theorem respond_resp (e : ErrCode) (d : Word64) (s : State) :
    (respond e d s).resp = some ⟨e.code, d⟩ := rfl
@[simp] theorem respond_inputs (e : ErrCode) (d : Word64) (s : State) :
    (respond e d s).inputs = s.inputs := rfl

@[simp] theorem fatal_digest (e : ErrCode) (s : State) :
    (fatal e s).digest = s.digest := rfl
@[simp] theorem fatal_buf (e : ErrCode) (s : State) :
    (fatal e s).buf = s.buf := rfl
@[simp] theorem fatal_fill (e : ErrCode) (s : State) :
    (fatal e s).fill = s.fill := rfl
@[simp] theorem fatal_phase (e : ErrCode) (s : State) :
    (fatal e s).phase = .faulted := rfl
@[simp] theorem fatal_msgLen (e : ErrCode) (s : State) :
    (fatal e s).msgLen = s.msgLen := rfl
@[simp] theorem fatal_err (e : ErrCode) (s : State) :
    (fatal e s).err = e := rfl
@[simp] theorem fatal_payload (e : ErrCode) (s : State) :
    (fatal e s).payload = s.payload := rfl
@[simp] theorem fatal_resp (e : ErrCode) (s : State) :
    (fatal e s).resp = some ⟨e.code, 0⟩ := rfl
@[simp] theorem fatal_inputs (e : ErrCode) (s : State) :
    (fatal e s).inputs = s.inputs := rfl

@[simp] theorem reinitialize_digest (s : State) :
    (reinitialize s).digest = Digest.initial s.variant := rfl
@[simp] theorem reinitialize_buf (s : State) :
    (reinitialize s).buf = zeroBytes (blockBytes s.variant) := rfl
@[simp] theorem reinitialize_fill (s : State) :
    (reinitialize s).fill = 0 := rfl
@[simp] theorem reinitialize_phase (s : State) :
    (reinitialize s).phase = .empty := rfl
@[simp] theorem reinitialize_msgLen (s : State) :
    (reinitialize s).msgLen = 0 := rfl
@[simp] theorem reinitialize_err (s : State) :
    (reinitialize s).err = .ok := rfl
@[simp] theorem reinitialize_payload (s : State) :
    (reinitialize s).payload = s.payload := rfl
@[simp] theorem reinitialize_resp (s : State) :
    (reinitialize s).resp = s.resp := rfl
@[simp] theorem reinitialize_inputs (s : State) :
    (reinitialize s).inputs = s.inputs := rfl

@[simp] theorem recordError_digest (e : ErrCode) (s : State) :
    (recordError e s).digest = s.digest := by unfold recordError; split <;> rfl
@[simp] theorem recordError_buf (e : ErrCode) (s : State) :
    (recordError e s).buf = s.buf := by unfold recordError; split <;> rfl
@[simp] theorem recordError_fill (e : ErrCode) (s : State) :
    (recordError e s).fill = s.fill := by unfold recordError; split <;> rfl
@[simp] theorem recordError_phase (e : ErrCode) (s : State) :
    (recordError e s).phase = s.phase := by unfold recordError; split <;> rfl
@[simp] theorem recordError_msgLen (e : ErrCode) (s : State) :
    (recordError e s).msgLen = s.msgLen := by unfold recordError; split <;> rfl
@[simp] theorem recordError_err (e : ErrCode) (s : State) :
    (recordError e s).err = if s.phase = .faulted then s.err else e := by unfold recordError; split <;> rfl
@[simp] theorem recordError_payload (e : ErrCode) (s : State) :
    (recordError e s).payload = s.payload := by unfold recordError; split <;> rfl
@[simp] theorem recordError_resp (e : ErrCode) (s : State) :
    (recordError e s).resp = s.resp := by unfold recordError; split <;> rfl
@[simp] theorem recordError_inputs (e : ErrCode) (s : State) :
    (recordError e s).inputs = s.inputs := by unfold recordError; split <;> rfl

@[simp] theorem reject_digest (e : ErrCode) (s : State) :
    (reject e s).digest = s.digest := recordError_digest e s
@[simp] theorem reject_buf (e : ErrCode) (s : State) :
    (reject e s).buf = s.buf := recordError_buf e s
@[simp] theorem reject_fill (e : ErrCode) (s : State) :
    (reject e s).fill = s.fill := recordError_fill e s
@[simp] theorem reject_phase (e : ErrCode) (s : State) :
    (reject e s).phase = s.phase := recordError_phase e s
@[simp] theorem reject_msgLen (e : ErrCode) (s : State) :
    (reject e s).msgLen = s.msgLen := recordError_msgLen e s
@[simp] theorem reject_err (e : ErrCode) (s : State) :
    (reject e s).err = if s.phase = .faulted then s.err else e := recordError_err e s
@[simp] theorem reject_payload (e : ErrCode) (s : State) :
    (reject e s).payload = s.payload := recordError_payload e s
@[simp] theorem reject_resp (e : ErrCode) (s : State) :
    (reject e s).resp = some ⟨e.code, 0⟩ := rfl
@[simp] theorem reject_inputs (e : ErrCode) (s : State) :
    (reject e s).inputs = s.inputs := recordError_inputs e s

@[simp] theorem compressFull_digest (s : State) :
    (compressFull s).digest = compress s.digest s.buf := rfl
@[simp] theorem compressFull_buf (s : State) :
    (compressFull s).buf = s.buf := rfl
@[simp] theorem compressFull_fill (s : State) :
    (compressFull s).fill = 0 := rfl
@[simp] theorem compressFull_phase (s : State) :
    (compressFull s).phase = s.phase := rfl
@[simp] theorem compressFull_msgLen (s : State) :
    (compressFull s).msgLen = s.msgLen := rfl
@[simp] theorem compressFull_err (s : State) :
    (compressFull s).err = s.err := rfl
@[simp] theorem compressFull_payload (s : State) :
    (compressFull s).payload = s.payload := rfl
@[simp] theorem compressFull_resp (s : State) :
    (compressFull s).resp = s.resp := rfl
@[simp] theorem compressFull_inputs (s : State) :
    (compressFull s).inputs = s.inputs := rfl

@[simp] theorem finalize_digest (s : State) :
    (finalize s).digest = compressAll s.digest (finalBlocks s) := rfl
@[simp] theorem finalize_buf (s : State) :
    (finalize s).buf = (finalBlocks s).getLastD s.buf := rfl
@[simp] theorem finalize_fill (s : State) :
    (finalize s).fill = 0 := rfl
@[simp] theorem finalize_phase (s : State) :
    (finalize s).phase = .done := rfl
@[simp] theorem finalize_msgLen (s : State) :
    (finalize s).msgLen = s.msgLen := rfl
@[simp] theorem finalize_err (s : State) :
    (finalize s).err = s.err := rfl
@[simp] theorem finalize_payload (s : State) :
    (finalize s).payload = s.payload := rfl
@[simp] theorem finalize_resp (s : State) :
    (finalize s).resp = s.resp := rfl
@[simp] theorem finalize_inputs (s : State) :
    (finalize s).inputs = s.inputs := rfl

@[simp] theorem presentRequest_digest (r : Request) (rest : List HostEvent) (s : State) :
    (presentRequest r rest s).digest = s.digest := rfl
@[simp] theorem presentRequest_buf (r : Request) (rest : List HostEvent) (s : State) :
    (presentRequest r rest s).buf = s.buf := rfl
@[simp] theorem presentRequest_fill (r : Request) (rest : List HostEvent) (s : State) :
    (presentRequest r rest s).fill = s.fill := rfl
@[simp] theorem presentRequest_phase (r : Request) (rest : List HostEvent) (s : State) :
    (presentRequest r rest s).phase = s.phase := rfl
@[simp] theorem presentRequest_msgLen (r : Request) (rest : List HostEvent) (s : State) :
    (presentRequest r rest s).msgLen = s.msgLen := rfl
@[simp] theorem presentRequest_err (r : Request) (rest : List HostEvent) (s : State) :
    (presentRequest r rest s).err = s.err := rfl
@[simp] theorem presentRequest_payload (r : Request) (rest : List HostEvent) (s : State) :
    (presentRequest r rest s).payload = r.payload := rfl
@[simp] theorem presentRequest_resp (r : Request) (rest : List HostEvent) (s : State) :
    (presentRequest r rest s).resp = s.resp := rfl
@[simp] theorem presentRequest_inputs (r : Request) (rest : List HostEvent) (s : State) :
    (presentRequest r rest s).inputs = rest := rfl

@[simp] theorem assertReset_digest (rest : List HostEvent) (s : State) :
    (assertReset rest s).digest = Digest.initial s.variant := rfl
@[simp] theorem assertReset_buf (rest : List HostEvent) (s : State) :
    (assertReset rest s).buf = List.replicate (blockBytes s.variant) 0 := rfl
@[simp] theorem assertReset_fill (rest : List HostEvent) (s : State) :
    (assertReset rest s).fill = 0 := rfl
@[simp] theorem assertReset_phase (rest : List HostEvent) (s : State) :
    (assertReset rest s).phase = .empty := rfl
@[simp] theorem assertReset_msgLen (rest : List HostEvent) (s : State) :
    (assertReset rest s).msgLen = 0 := rfl
@[simp] theorem assertReset_err (rest : List HostEvent) (s : State) :
    (assertReset rest s).err = .ok := rfl
@[simp] theorem assertReset_payload (rest : List HostEvent) (s : State) :
    (assertReset rest s).payload = [] := rfl
@[simp] theorem assertReset_resp (rest : List HostEvent) (s : State) :
    (assertReset rest s).resp = none := rfl
@[simp] theorem assertReset_inputs (rest : List HostEvent) (s : State) :
    (assertReset rest s).inputs = rest := rfl

@[simp] theorem idle_digest (s : State) :
    (idle s).digest = s.digest := rfl
@[simp] theorem idle_buf (s : State) :
    (idle s).buf = s.buf := rfl
@[simp] theorem idle_fill (s : State) :
    (idle s).fill = s.fill := rfl
@[simp] theorem idle_phase (s : State) :
    (idle s).phase = s.phase := rfl
@[simp] theorem idle_msgLen (s : State) :
    (idle s).msgLen = s.msgLen := rfl
@[simp] theorem idle_err (s : State) :
    (idle s).err = s.err := rfl
@[simp] theorem idle_payload (s : State) :
    (idle s).payload = s.payload := rfl
@[simp] theorem idle_resp (s : State) :
    (idle s).resp = none := rfl
@[simp] theorem idle_inputs (s : State) :
    (idle s).inputs = s.inputs := rfl

@[simp] theorem initial_variant (v : Variant) : (Digest.initial v).variant = v := by cases v <;> rfl

@[simp] theorem compress_variant (d : Digest) (blk : List Byte) : (compress d blk).variant = d.variant := by
  cases d <;> rfl

@[simp] theorem compressAll_variant (d : Digest) (blocks : List (List Byte)) :
    (compressAll d blocks).variant = d.variant := by
  induction blocks generalizing d with
  | nil => rfl
  | cons b bs ih => simpa [compressAll] using ih (compress d b)

@[simp] theorem respond_variant (e : ErrCode) (d : Word64) (s : State) : (respond e d s).variant = s.variant := rfl
@[simp] theorem fatal_variant (e : ErrCode) (s : State) : (fatal e s).variant = s.variant := rfl
@[simp] theorem recordError_variant (e : ErrCode) (s : State) : (recordError e s).variant = s.variant := by
  simp [State.variant]
@[simp] theorem reject_variant (e : ErrCode) (s : State) : (reject e s).variant = s.variant := by
  simp [State.variant]
@[simp] theorem reinitialize_variant (s : State) : (reinitialize s).variant = s.variant :=
  initial_variant s.variant
@[simp] theorem compressFull_variant (s : State) : (compressFull s).variant = s.variant := by
  simp [State.variant]
@[simp] theorem finalize_variant (s : State) : (finalize s).variant = s.variant := by
  simp [State.variant]
@[simp] theorem presentRequest_variant (r : Request) (rest : List HostEvent) (s : State) :
    (presentRequest r rest s).variant = s.variant := rfl
@[simp] theorem assertReset_variant (rest : List HostEvent) (s : State) :
    (assertReset rest s).variant = s.variant := initial_variant s.variant
@[simp] theorem idle_variant (s : State) : (idle s).variant = s.variant := rfl

end Sys2Proof.Machine
end

