-- ==== Sys2Proof/Laws/Ops.lean ====
section
/-! SUPPORT. What each shared operation can do, said once: the legality check, DATA's cases, writing bytes into BUF, and
the outcome of a command. -/

namespace Sys2Proof.Machine

/-- Rejecting writes ERR outside FAULTED and the response, and nothing else (R130). -/
theorem reject_eq (e : ErrCode) (s : State) :
    reject e s = { s with err := if s.phase = .faulted then s.err else e, resp := some ⟨e.code, 0⟩ } := by
  unfold reject respond recordError
  split <;> rfl

/-- A legality check either runs the rule or rejects (R112). -/
theorem whenLegal_cases (i : Instr) (rule : State → State) (s : State) :
    (legalIn i s.phase = true ∧ whenLegal i rule s = .next (rule s))
      ∨ (legalIn i s.phase = false ∧ whenLegal i rule s = .next (reject .badState s)) := by
  cases h : legalIn i s.phase <;> simp [whenLegal, h]

/-- In a legal phase the rule runs. -/
theorem whenLegal_of_legal {i : Instr} {s : State} (rule : State → State) (h : legalIn i s.phase = true) :
    whenLegal i rule s = .next (rule s) := by simp [whenLegal, h]

/-- Outside its legal phases a command is rejected with BAD_STATE. -/
theorem whenLegal_of_illegal {i : Instr} {s : State} (rule : State → State) (h : legalIn i s.phase = false) :
    whenLegal i rule s = .next (reject .badState s) := by simp [whenLegal, h]

/-- A command in one of its legal phases, by the rule it runs. -/
def ruleOf : Instr → State → State
  | .init, s => respond .ok 0 (reinitialize s)
  | .start, s => respond .ok 0 { s with msgLen := startLength s, phase := .accum }
  | .eoi, s => respond .ok 0 (finalize s)
  | .data count, s => deliver count s
  | .ioerr, s => fatal .ioFault s
  | .rdstat, s => respond .ok ((statusWord s).zeroExtend 64) s
  | .rddig idx, s => respond .ok (s.digest.word idx) s

/-- Every command is the legality check over its rule (R109). -/
theorem exec_eq_whenLegal (i : Instr) (s : State) : exec i s = whenLegal i (ruleOf i) s := by
  cases i <;> rfl

/-- What a command that answers has done: run its rule in a legal phase, or been rejected with BAD_STATE. -/
theorem exec_next {i : Instr} {s t : State} (h : exec i s = .next t) :
    (legalIn i s.phase = true ∧ t = ruleOf i s) ∨ (legalIn i s.phase = false ∧ t = reject .badState s) := by
  rw [exec_eq_whenLegal] at h
  rcases whenLegal_cases i (ruleOf i) s with ⟨hl, hw⟩ | ⟨hl, hw⟩ <;> rw [hw] at h <;> injection h with h
  · exact .inl ⟨hl, h.symm⟩
  · exact .inr ⟨hl, h.symm⟩

/-- DATA in its legal phase: the contract violation, or the bytes absorbed (R113). -/
theorem deliver_cases (count : BitVec 8) (s : State) :
    (spaceOffered s < count.toNat ∧ deliver count s = fatal .contract s)
      ∨ (count.toNat ≤ spaceOffered s ∧ deliver count s = respond .ok 0 (absorb (dataBytes count s) s)) := by
  unfold deliver
  split
  · exact .inl ⟨‹_›, rfl⟩
  · exact .inr ⟨by omega, rfl⟩

@[simp] theorem lanes_length (payload : List Byte) (n : Nat) : (lanes payload n).length = n := by simp [lanes]

@[simp] theorem dataBytes_length (count : BitVec 8) (s : State) : (dataBytes count s).length = count.toNat := by
  simp [dataBytes]

@[simp] theorem zeroBytes_length (n : Nat) : (zeroBytes n).length = n := by simp [zeroBytes]

@[simp] theorem writeBytes_length (buf : List Byte) (off : Nat) (d : List Byte) :
    (writeBytes buf off d).length = buf.length := by
  induction d generalizing buf off with
  | nil => rfl
  | cons b d ih => simp [writeBytes, ih]

/-- Bytes written inside the buffer replace exactly their own positions (R82). -/
theorem writeBytes_eq {buf : List Byte} {off : Nat} {d : List Byte} (h : off + d.length ≤ buf.length) :
    writeBytes buf off d = buf.take off ++ d ++ buf.drop (off + d.length) := by
  induction d generalizing buf off with
  | nil => simp [writeBytes]
  | cons b d ih =>
    simp only [List.length_cons] at h
    have hset : (buf.set off b).take (off + 1) = buf.take off ++ [b] := by
      rw [List.take_add_one, List.take_set_of_le (le_refl _)]
      simp [List.getElem?_set_self (show off < buf.length by omega)]
    have hdrop : (buf.set off b).drop (off + 1 + d.length) = buf.drop (off + 1 + d.length) :=
      List.drop_set_of_lt (by omega)
    rw [writeBytes, ih (by simp only [List.length_set]; omega), hset, hdrop]
    simp only [List.append_assoc, List.cons_append, List.nil_append, List.length_cons]
    rw [show off + (d.length + 1) = off + 1 + d.length by omega]

/-- A byte outside the written positions is unchanged. -/
theorem writeBytes_outside {buf : List Byte} {off : Nat} {d : List Byte} {j : Nat}
    (h : j < off ∨ off + d.length ≤ j) : (writeBytes buf off d)[j]? = buf[j]? := by
  induction d generalizing buf off with
  | nil => rfl
  | cons b d ih =>
    simp only [List.length_cons] at h
    rw [writeBytes, ih (by omega), List.getElem?_set_ne (by omega)]

/-- The block sizes. -/
theorem blockBytes_cases (v : Variant) : blockBytes v = 64 ∨ blockBytes v = 128 := by cases v <;> simp [blockBytes, sha256Params, sha512Params]

theorem blockBytes_pos (v : Variant) : 0 < blockBytes v := by cases v <;> decide

theorem blockBytes_lt (v : Variant) : blockBytes v < 256 := by cases v <;> decide

/-- The state Absorb compresses, or leaves, once the bytes are in BUF (R82). -/
def withBytes (d : List Byte) (s : State) : State :=
  { s with buf := writeBytes s.buf s.fill.toNat d, fill := s.fill + BitVec.ofNat 8 d.length }

@[simp] theorem withBytes_variant (d : List Byte) (s : State) : (withBytes d s).variant = s.variant := rfl

@[simp] theorem withBytes_buf (d : List Byte) (s : State) :
    (withBytes d s).buf = writeBytes s.buf s.fill.toNat d := rfl
@[simp] theorem withBytes_digest (d : List Byte) (s : State) : (withBytes d s).digest = s.digest := rfl
@[simp] theorem withBytes_phase (d : List Byte) (s : State) : (withBytes d s).phase = s.phase := rfl
@[simp] theorem withBytes_msgLen (d : List Byte) (s : State) : (withBytes d s).msgLen = s.msgLen := rfl
@[simp] theorem withBytes_err (d : List Byte) (s : State) : (withBytes d s).err = s.err := rfl
@[simp] theorem withBytes_payload (d : List Byte) (s : State) : (withBytes d s).payload = s.payload := rfl
@[simp] theorem withBytes_resp (d : List Byte) (s : State) : (withBytes d s).resp = s.resp := rfl
@[simp] theorem withBytes_inputs (d : List Byte) (s : State) : (withBytes d s).inputs = s.inputs := rfl

/-- FILL counts the bytes, when they fit (R82). -/
theorem withBytes_fill {d : List Byte} {s : State} (h : s.fill.toNat + d.length ≤ blockBytes s.variant) :
    (withBytes d s).fill.toNat = s.fill.toNat + d.length := by
  have := blockBytes_lt s.variant
  simp only [withBytes, BitVec.toNat_add, BitVec.toNat_ofNat]
  omega

/-- Absorb of bytes that do not fill the block only appends them (R82). -/
theorem absorb_partial {d : List Byte} {s : State} (h : s.fill.toNat + d.length < blockBytes s.variant) :
    absorb d s = withBytes d s := by
  have hf := withBytes_fill (d := d) (s := s) (by omega)
  unfold absorb
  change (if (withBytes d s).fill.toNat = blockBytes (withBytes d s).variant then _ else _) = _
  rw [hf, withBytes_variant, if_neg (by omega)]
  rfl

/-- Absorb of bytes that fill the block compresses it (R82, R83). -/
theorem absorb_full {d : List Byte} {s : State} (h : s.fill.toNat + d.length = blockBytes s.variant) :
    absorb d s = compressFull (withBytes d s) := by
  have hf := withBytes_fill (d := d) (s := s) (by omega)
  unfold absorb
  change (if (withBytes d s).fill.toNat = blockBytes (withBytes d s).variant then _ else _) = _
  rw [hf, withBytes_variant, if_pos h]
  rfl

/-- What Absorb can do, in any state: write the bytes into BUF, set FILL, and either leave H or compress the new BUF. -/
theorem absorb_spec (d : List Byte) (s : State) :
    ∃ dg f, absorb d s = { s with digest := dg, buf := writeBytes s.buf s.fill.toNat d, fill := f }
      ∧ dg.variant = s.variant ∧ (dg = s.digest ∨ dg = compress s.digest (writeBytes s.buf s.fill.toNat d)) := by
  unfold absorb
  simp only
  split
  · exact ⟨_, _, rfl, by simp [State.variant], .inr rfl⟩
  · exact ⟨_, _, rfl, rfl, .inl rfl⟩

/-- No rule changes the instance (R24). -/
theorem ruleOf_variant (i : Instr) (s : State) : (ruleOf i s).variant = s.variant := by
  cases i with
  | data n =>
    simp only [ruleOf]
    rcases deliver_cases n s with ⟨-, he⟩ | ⟨-, he⟩
    · simp [he]
    · obtain ⟨dg, f, ha, hv, -⟩ := absorb_spec (dataBytes n s) s
      rw [he, ha]
      exact hv
  | start => rfl
  | init => simp [ruleOf]
  | eoi => simp [ruleOf]
  | ioerr => simp [ruleOf]
  | rdstat => simp [ruleOf]
  | rddig k => simp [ruleOf]

/-- What a step on a request has done: rejected an ILLEGAL word, rejected a command in a wrong phase, or run the
command's rule (R109). -/
theorem step_request {s t : State} {r : Request} {rest : List HostEvent}
    (h : s.inputs = .request r :: rest) (ht : step s = .next t) :
    (∃ why, decode r.cmd = .illegal why ∧ t = reject .illegal (presentRequest r rest s))
    ∨ (∃ i, decode r.cmd = .instr i ∧ legalIn i s.phase = false
        ∧ t = reject .badState (presentRequest r rest s))
    ∨ (∃ i, decode r.cmd = .instr i ∧ legalIn i s.phase = true ∧ t = ruleOf i (presentRequest r rest s)) := by
  simp only [step, h] at ht
  split at ht
  · rename_i i hd
    rcases exec_next ht with ⟨hl, rfl⟩ | ⟨hl, rfl⟩
    · exact .inr (.inr ⟨i, hd, hl, rfl⟩)
    · exact .inr (.inl ⟨i, hd, hl, rfl⟩)
  · rename_i why hd
    injection ht with ht
    exact .inl ⟨why, hd, ht.symm⟩

end Sys2Proof.Machine
end

