-- ==== Sys2Proof/Laws/Datapath.lean ====
section
/-! SUPPORT. Lengths of what the datapath builds: byte strings of words, the schedule, the padding blocks. -/

namespace Sys2Proof.Machine

@[simp] theorem bytesOfWord_length {w : Nat} (n : Nat) (v : BitVec w) : (bytesOfWord n v).length = n := by
  simp [bytesOfWord]

@[simp] theorem lengthField_length (len : Word64) : (lengthField len).length = 8 := by simp [lengthField]

@[simp] theorem firstWords_length (w : Nat) (blk : List Byte) : (firstWords w blk).length = 16 := by
  simp [firstWords]

@[simp] theorem expandSchedule_length {w : Nat} (p : Params w) (n : Nat) (ws : List (BitVec w)) :
    (expandSchedule p n ws).length = ws.length + n := by
  induction n generalizing ws with
  | zero => rfl
  | succ n ih => simp [expandSchedule, ih]; omega

/-- The words present before an expansion stay (R98). -/
theorem expandSchedule_prefix {w : Nat} (p : Params w) (n : Nat) (ws : List (BitVec w)) {j : Nat}
    (h : j < ws.length) : (expandSchedule p n ws).getD j 0 = ws.getD j 0 := by
  induction n generalizing ws with
  | zero => rfl
  | succ n ih =>
    rw [expandSchedule, ih _ (by simp; omega)]
    simp [List.getD, List.getElem?_append_left h]

/-- Every block Pad returns has B bytes (R87). -/
theorem pad_block_length {v : Variant} {buf : List Byte} {fill : Nat} {len : Word64}
    (hb : buf.length = blockBytes v) (hf : fill < blockBytes v) :
    ∀ blk ∈ pad v buf fill len, blk.length = blockBytes v := by
  have hB := blockBytes_cases v
  intro blk hblk
  unfold pad lowerBound at hblk
  split at hblk <;> simp only [List.mem_cons, List.not_mem_nil, or_false] at hblk
  · subst hblk
    simp; omega
  · rcases hblk with rfl | rfl <;> simp <;> omega

/-- The last block Pad returns has B bytes. -/
theorem pad_last_length {v : Variant} {buf : List Byte} {fill : Nat} {len : Word64}
    (hb : buf.length = blockBytes v) (hf : fill < blockBytes v) :
    ((pad v buf fill len).getLastD buf).length = blockBytes v := by
  have h := pad_block_length (len := len) hb hf
  unfold pad at h ⊢
  split at h <;> rename_i hlt
  · simp only [hlt, if_true, List.getLastD_cons, List.getLastD_nil]
    exact h _ (by simp)
  · simp only [hlt, if_false, List.getLastD_cons, List.getLastD_nil]
    exact h _ (by simp)

end Sys2Proof.Machine
end

