-- ==== Sys2Proof/Laws/PerInstr.lean ====
section
/-! SUPPORT. For every command: its word matches its row of the opcode map under the row's mask (R58). -/

namespace Sys2Proof.Laws.OpcodeRow

/-- The encoded command agrees with its row's match on the row's mask (R58). -/
def Statement (i : Instr) : Prop := encode i &&& rowMask i = rowMatch i

theorem init : Statement .init := by unfold Statement; decide
theorem start : Statement .start := by unfold Statement; decide
theorem eoi : Statement .eoi := by unfold Statement; decide
theorem data (count : BitVec 8) : Statement (.data count) := by
  unfold Statement
  revert count
  decide
theorem ioerr : Statement .ioerr := by unfold Statement; decide
theorem rdstat : Statement .rdstat := by unfold Statement; decide
theorem rddig (idx : BitVec 3) : Statement (.rddig idx) := by
  unfold Statement
  revert idx
  decide

end Sys2Proof.Laws.OpcodeRow
end

