-- ==== Sys2Proof/Tests/Slice0.lean ====
section
/-! SUPPORT. Tests: ill-formed terms the checks refuse, words written out from the opcode map, vectors of
95_test_vectors.md (its section is named at each test), and a witness for every obligation that has hypotheses. -/

namespace Sys2Proof.Tests

open Sys2Proof.Machine

/-! ### Helpers -/

/-- The next state, if there is one. -/
def nextOf : Host.Outcome State Fault Refusal → Option State
  | .next t => some t
  | .fault _ => none
  | .refused _ => none

/-- An instance in the given phase, with payload lanes 1, 2, 3, … -/
def held (v : Variant) (p : Phase) (fill : BitVec 8) (e : ErrCode) : State :=
  { State.resetOf v with
    phase := p, fill := fill, err := e, payload := (List.range (blockBytes v)).map fun j => BitVec.ofNat 8 (j + 1) }

/-- What the tables of section 5.2 show: the response, PHASE, FILL and ERR. -/
def shown (o : Host.Outcome State Fault Refusal) : Option (Option Response × Phase × BitVec 8 × ErrCode) :=
  (nextOf o).map fun t => (t.resp, t.phase, t.fill, t.err)

/-- A state on whose port a word and a payload stand. -/
def asked (s : State) (cmd : Cmd) (payload : List Byte) : State := { s with inputs := [.request ⟨cmd, payload⟩] }

/-- An accumulating instance whose BUF begins with `m`, of less than a block. -/
def filled (v : Variant) (m : List Byte) : State :=
  { State.resetOf v with
    phase := .accum, buf := m ++ List.replicate (blockBytes v - m.length) 0, fill := BitVec.ofNat 8 m.length
    payload := (List.range (blockBytes v)).map fun j => BitVec.ofNat 8 (j + 1) }

/-- The state after the requests, if every step answers. -/
def run : List Request → State → Option State
  | [], s => some s
  | r :: rs, s => (nextOf (step { s with inputs := [.request r] })).bind (run rs)

/-! ### Ill-formed terms -/

theorem test_data_of_no_bytes_is_ill_formed : ¬ (Instr.data 0).WellFormed := by decide

theorem test_block_not_twice_the_width : ¬ ({ sha256Params with block := 128 } : Params 32).WellFormed := by decide

theorem test_fewer_than_16_rounds :
    ¬ ({ sha256Params with rounds := 15, k := k256.take 15 } : Params 32).WellFormed := by decide

theorem test_table_shorter_than_the_rounds : ¬ ({ sha256Params with k := k256.take 63 } : Params 32).WellFormed := by
  decide

theorem test_amount_zero_in_big_sigma_0 : ¬ ({ sha256Params with bigSigma0 := ⟨0, 13, 22⟩ } : Params 32).WellFormed := by
  decide

theorem test_amount_of_the_width_in_big_sigma_1 :
    ¬ ({ sha256Params with bigSigma1 := ⟨6, 32, 25⟩ } : Params 32).WellFormed := by decide

theorem test_shift_of_the_width_in_little_sigma_0 :
    ¬ ({ sha256Params with littleSigma0 := ⟨7, 18, 32⟩ } : Params 32).WellFormed := by decide

theorem test_shift_zero_in_little_sigma_1 : ¬ ({ sha256Params with littleSigma1 := ⟨17, 19, 0⟩ } : Params 32).WellFormed := by
  decide

/-- W = 16 gives B/8 = 4, less than the 8 bytes of the length field; every other condition holds. -/
theorem test_length_region_too_small :
    ¬ (⟨32, 16, List.replicate 16 0, iv256.map (BitVec.setWidth 16), ⟨1, 2, 3⟩, ⟨1, 2, 3⟩, ⟨1, 2, 3⟩, ⟨1, 2, 3⟩⟩
      : Params 16).WellFormed := by decide

/-! ### Decoding (R54, R55, R58; section 5.1): words written out bit by bit -/

theorem test_decode_init : decode 0b0001_0000_0000_0000_0000_0000_0000_0000 = .instr .init := by decide
theorem test_decode_start : decode 0b0010_0000_0000_0000_0000_0000_0000_0000 = .instr .start := by decide
theorem test_decode_eoi : decode 0b0011_0000_0000_0000_0000_0000_0000_0000 = .instr .eoi := by decide
theorem test_decode_data : decode 0b0011_0000_0000_0000_0000_0000_0100_0001 = .instr (.data 65) := by decide
theorem test_decode_ioerr : decode 0b0100_0000_0000_0000_0000_0000_0000_0000 = .instr .ioerr := by decide
theorem test_decode_rdstat : decode 0b0101_0000_0000_0000_0000_0000_0000_0000 = .instr .rdstat := by decide
theorem test_decode_rddig : decode 0b0110_0000_0000_0000_0000_0000_0000_0101 = .instr (.rddig 5) := by decide
theorem test_decode_data_reserved : decode 0b0011_0000_0000_0000_0000_0001_1111_1111 = .illegal .reservedBits := by decide
theorem test_decode_op_7 : decode 0b0111_0000_0000_0000_0000_0000_0000_0000 = .illegal .reservedOp := by decide

theorem test_table_word_is_run :
    decodeTableWord 32 0x20000000 = some .start
    ∧ shown (step (State.reset.withFetchWord 32 0x20000000)) = some (some ⟨0, 0⟩, .accum, 0, .ok) := by decide

/-! ### Commands (section 5.2) -/

theorem test_start_in_empty :
    (nextOf (exec .start { State.reset with payload := [0, 0, 0, 0, 0, 0, 0, 3] })).map (fun t => (t.msgLen, t.phase))
      = some (3, .accum) := by decide

theorem test_start_in_accum :
    shown (exec .start (held .sha256 .accum 0 .ok)) = some (some ⟨4, 0⟩, .accum, 0, .badState) := by decide

theorem test_data_of_44_at_20 :
    shown (exec (.data 44) (held .sha256 .accum 20 .ok)) = some (some ⟨0, 0⟩, .accum, 0, .ok) := by decide

theorem test_data_of_45_at_20 :
    shown (exec (.data 45) (held .sha256 .accum 20 .ok)) = some (some ⟨2, 0⟩, .faulted, 20, .contract) := by decide

theorem test_eoi_at_56 :
    shown (exec .eoi (held .sha256 .accum 56 .ok)) = some (some ⟨0, 0⟩, .done, 0, .ok)
    ∧ compressionsRun .eoi (held .sha256 .accum 56 .ok) = 2 := by decide

theorem test_eoi_in_faulted :
    shown (exec .eoi (held .sha256 .faulted 3 .ioFault)) = some (some ⟨4, 0⟩, .faulted, 3, .ioFault) := by decide

theorem test_ioerr_in_accum :
    shown (exec .ioerr (held .sha256 .accum 3 .ok)) = some (some ⟨1, 0⟩, .faulted, 3, .ioFault) := by decide

theorem test_ioerr_in_empty : shown (exec .ioerr State.reset) = some (some ⟨4, 0⟩, .empty, 0, .badState) := by decide

theorem test_rdstat_in_accum :
    shown (exec .rdstat (held .sha256 .accum 3 .ok)) = some (some ⟨0, 0x00000301⟩, .accum, 3, .ok) := by decide

theorem test_rdstat_in_faulted :
    shown (exec .rdstat (held .sha512 .faulted 2 .ioFault)) = some (some ⟨0, 0x00010214⟩, .faulted, 2, .ioFault) := by
  decide

theorem test_rddig_keeps_the_error :
    shown (exec (.rddig 1) (held .sha256 .done 0 .badState)) = some (some ⟨0, 0xBB67AE85⟩, .done, 0, .badState) := by
  decide

theorem test_rddig_in_empty : shown (exec (.rddig 0) State.reset) = some (some ⟨4, 0⟩, .empty, 0, .badState) := by decide

theorem test_init_in_faulted :
    (nextOf (exec .init (held .sha512 .faulted 3 .contract))).map (fun t => (t.digest, t.phase, t.fill, t.err))
      = some (.sha512 iv512, .empty, 0, .ok) := by decide

theorem test_init_keeps_the_instance :
    (nextOf (exec .init (held .sha512 .done 0 .ok))).map (fun t => statusWord t) = some 0x00010000 := by decide

/-! ### Errors and their priority (section 6) -/

theorem test_illegal_before_bad_state :
    shown (step (asked (held .sha256 .done 0 .ok) 0x300001FF [])) = some (some ⟨3, 0⟩, .done, 0, .illegal) := by decide

theorem test_bad_state_before_contract :
    shown (step (asked (held .sha256 .done 0 .ok) 0x300000FF [])) = some (some ⟨4, 0⟩, .done, 0, .badState) := by decide

theorem test_faulted_freezes_the_error :
    shown (step (asked (held .sha256 .faulted 3 .ioFault) 0x70000000 []))
      = some (some ⟨3, 0⟩, .faulted, 3, .ioFault) := by decide

/-! ### Datapath (sections 2, 3 and 4) -/

theorem test_add_modulo : addModulo 0x6A09E667#32 0xBB67AE85#32 = 0x257194EC#32 := by decide
theorem test_rotr_32 : rotr 0x12345678#32 8 = 0x78123456#32 := by decide
theorem test_rotr_64 : rotr 0x0123456789ABCDEF#64 16 = 0xCDEF0123456789AB#64 := by decide
theorem test_shr_64 : shr 0xFFFFFFFFFFFFFFFF#64 7 = 0x01FFFFFFFFFFFFFF#64 := by decide
theorem test_word_from_bytes : wordFromBytes 32 [0xDE, 0xAD, 0xBE, 0xEF] = .ok 0xDEADBEEF := by decide
theorem test_word_from_three_bytes : wordFromBytes 32 [0xDE, 0xAD, 0xBE] = .error .wordLength := by decide
theorem test_ch : ch 0x510E527F#32 0x9B05688C#32 0x1F83D9AB#32 = 0x1F85C98C#32 := by decide
theorem test_maj : maj 0x6A09E667#32 0xBB67AE85#32 0x3C6EF372#32 = 0x3A6FE667#32 := by decide
theorem test_little_sigma_1 : littleSigma sha512Params.littleSigma1 0x6A09E667F3BCC908#64 = 0xC8C619E73EE44510#64 := by
  decide

/-- Section 3: SHA-512, 112 × 'a'. -/
theorem test_pad_spills_over :
    pad .sha512 (List.replicate 112 0x61 ++ List.replicate 16 0) 112 112
      = [List.replicate 112 0x61 ++ 0x80 :: List.replicate 15 0,
         List.replicate 120 0 ++ [0, 0, 0, 0, 0, 0, 0x03, 0x80]] := by decide

/-- Section 3: SHA-256, "abc" over a stale buffer. -/
theorem test_pad_discards_stale_bytes :
    pad .sha256 ([0x61, 0x62, 0x63] ++ List.replicate 61 0xFF) 3 3
      = [[0x61, 0x62, 0x63, 0x80] ++ List.replicate 59 0 ++ [0x18]] := by decide

/-- Section 4.1: W[16..18] of "abc". -/
theorem test_schedule :
    ((schedule sha256Params ([0x61, 0x62, 0x63, 0x80] ++ List.replicate 59 0 ++ [0x18])).drop 16).take 3
      = [0x61626380, 0x000F0000, 0x7DA86405] := by decide +kernel

/-- Section 1.2: SHA-256 of "abc", by the protocol on the engine, and its rendering (R120). -/
theorem test_sha256_of_abc :
    (run ((protocolRequests [[0x61, 0x62, 0x63]]).take 4) (State.resetOf .sha256)).map (fun t => toHex t.digest)
      = some "ba7816bf8f01cfea414140de5dae2223b00361a396177a9cb410ff61f20015ad" := by decide +kernel

/-- Section 1.2: the first and fourth word of SHA-512 of "abc". -/
theorem test_sha512_of_abc :
    (run ((protocolRequests [[0x61, 0x62, 0x63]]).take 4) (State.resetOf .sha512)).map
        (fun t => (t.digest.word 0, t.digest.word 3))
      = some (0xDDAF35A193617ABA, 0x0A9EEEE64B55D39A) := by decide +kernel

/-- R64: a line of assembly. -/
theorem test_parse_data : parseLine "  data 3, \"a;c\" ; three bytes".toList = some [.data [0x61, 0x3B, 0x63]] := by
  decide +kernel

/-- R64, section 8 program P3: a reserved word written with .word. -/
theorem test_parse_word : parseLine ".word 0x70000000".toList = some [.word 0x70000000] := by decide +kernel

/-- R65: DIGEST stands for eight reads. -/
theorem test_digest_expands : (assemble .sha256 .digest).map (fun r => r.cmd) =
    [0x60000000, 0x60000001, 0x60000002, 0x60000003, 0x60000004, 0x60000005, 0x60000006, 0x60000007] := by decide

/-! ### Witnesses: the hypotheses of each obligation are met, each clause at a boundary -/

theorem witness_DecodeOfEncode : (Instr.data 255).WellFormed ∧ (Instr.rddig 7).WellFormed := by decide

theorem witness_EncodeOfDecode : decode 0x300000FF = .instr (.data 255) := by decide

theorem witness_DecodeIsTheOpcodeMap :
    ((0x0FFFFFFF : Cmd) >>> 28).toNat = 0 ∧ 7 ≤ ((0x7FFFFFFF : Cmd) >>> 28).toNat
    ∧ 7 ≤ ((0xF0000000 : Cmd) >>> 28).toNat := by decide

theorem witness_StepRunsTheDecodedCommand :
    (asked State.reset 0x20000000 [1]).inputs = .request ⟨0x20000000, [1]⟩ :: []
    ∧ decode (⟨0x20000000, [1]⟩ : Request).cmd = .instr .start := by decide

theorem witness_ReservedOpcodeIsRejected :
    (asked State.reset 0x00000000 []).inputs = .request ⟨0x00000000, []⟩ :: []
    ∧ ((⟨0x00000000, []⟩ : Request).cmd >>> 28).toNat = 0 ∧ 7 ≤ ((⟨0x70000000, []⟩ : Request).cmd >>> 28).toNat := by decide

theorem witness_ReservedBitIsRejected :
    (asked State.reset 0x10000001 []).inputs = .request ⟨0x10000001, []⟩ :: []
    ∧ (((0x18000000 : Cmd) >>> 28).toNat ∈ [1, 2, 4, 5] ∧ (0x18000000 : Cmd) &&& 0x0FFFFFFF ≠ 0)
    ∧ (((0x10000001 : Cmd) >>> 28).toNat ∈ [1, 2, 4, 5] ∧ (0x10000001 : Cmd) &&& 0x0FFFFFFF ≠ 0)
    ∧ (((0x30000100 : Cmd) >>> 28).toNat = 3 ∧ (0x30000100 : Cmd) &&& 0x0FFFFF00 ≠ 0)
    ∧ (((0x60000008 : Cmd) >>> 28).toNat = 6 ∧ (0x60000008 : Cmd) &&& 0x0FFFFFF8 ≠ 0) := by decide

theorem witness_IllegalWordIsRejected :
    (asked State.reset 0xFFFFFFFF []).inputs = .request ⟨0xFFFFFFFF, []⟩ :: []
    ∧ decode (⟨0xFFFFFFFF, []⟩ : Request).cmd = .illegal .reservedOp := by decide

theorem witness_ResetGivesTheResetValues :
    ({ held .sha512 .faulted 9 .contract with inputs := [.reset] } : State).inputs = .reset :: [] := by decide

theorem witness_ResetDuringACommandAbandonsIt :
    ({ held .sha512 .accum 127 .ok with inputs := [.resetDuring ⟨0x30000001, [1]⟩] } : State).inputs
      = .resetDuring ⟨0x30000001, [1]⟩ :: [] := by decide

theorem witness_IdleCoreKeepsItsState : (held .sha256 .done 0 .ok).inputs = [] := by decide

/-- One request for each arm, with its outcome. -/
theorem witness_ResponseOfEveryRequest :
    (asked State.reset 0x40000000 []).inputs = .request ⟨0x40000000, []⟩ :: []
    ∧ shown (step (asked (held .sha256 .accum 63 .ok) 0x30000001 [9])) = some (some ⟨0, 0⟩, .accum, 0, .ok)
    ∧ shown (step (asked (held .sha256 .accum 63 .ok) 0x30000002 [9])) = some (some ⟨2, 0⟩, .faulted, 63, .contract)
    ∧ shown (step (asked (held .sha256 .accum 63 .ok) 0x40000000 [])) = some (some ⟨1, 0⟩, .faulted, 63, .ioFault)
    ∧ shown (step (asked (held .sha256 .done 0 .ok) 0x60000007 [])) = some (some ⟨0, 0x5BE0CD19⟩, .done, 0, .ok) := by
  refine ⟨?_, ?_, ?_, ?_, ?_⟩ <;> decide

theorem witness_InitReinitializes :
    Instr.rdstat ≠ .init ∧ (held .sha256 .done 0 .ok).phase = .done ∧ (held .sha256 .faulted 0 .contract).phase = .faulted
    ∧ nextOf (exec .start (held .sha256 .done 0 .ok)) ≠ none := by decide

theorem witness_StartLoadsTheLength :
    (held .sha256 .empty 0 .ok).phase = .empty ∧ (held .sha256 .accum 0 .ok).phase ≠ .empty
    ∧ (nextOf (exec .start (held .sha256 .empty 0 .ok))).map (fun t => t.msgLen) = some 0x0102030405060708 := by decide

/-- FILL + COUNT = B − 1, B and B + 1, and a phase in which DATA is not legal. -/
theorem witness_DataDeliversBytes :
    (44 : BitVec 8) ≠ 0 ∧ (held .sha256 .accum 20 .ok).buf.length = blockBytes (held .sha256 .accum 20 .ok).variant
    ∧ (held .sha256 .accum 20 .ok).phase = .accum
    ∧ (held .sha256 .accum 20 .ok).fill.toNat + (43 : BitVec 8).toNat < blockBytes (held .sha256 .accum 20 .ok).variant
    ∧ (held .sha256 .accum 20 .ok).fill.toNat + (44 : BitVec 8).toNat = blockBytes (held .sha256 .accum 20 .ok).variant
    ∧ blockBytes (held .sha256 .accum 20 .ok).variant < (held .sha256 .accum 20 .ok).fill.toNat + (45 : BitVec 8).toNat
    ∧ shown (exec (.data 43) (held .sha256 .accum 20 .ok)) = some (some ⟨0, 0⟩, .accum, 63, .ok)
    ∧ (held .sha256 .done 0 .ok).phase ≠ .accum := by decide

/-- FILL = LB − 1 and LB, on both instances, and a phase in which EOI is not legal. -/
theorem witness_EoiPadsAndFinishes :
    (held .sha256 .accum 55 .ok).phase = .accum
    ∧ (held .sha256 .accum 55 .ok).fill.toNat < lowerBound (held .sha256 .accum 55 .ok).variant
    ∧ lowerBound (held .sha256 .accum 56 .ok).variant ≤ (held .sha256 .accum 56 .ok).fill.toNat
    ∧ (held .sha512 .accum 111 .ok).fill.toNat < lowerBound (held .sha512 .accum 111 .ok).variant
    ∧ lowerBound (held .sha512 .accum 112 .ok).variant ≤ (held .sha512 .accum 112 .ok).fill.toNat
    ∧ (held .sha256 .empty 0 .ok).phase ≠ .accum := by decide

theorem witness_IoerrFaultsTheCore :
    (held .sha512 .accum 0 .ok).phase = .accum ∧ (held .sha512 .faulted 0 .contract).phase ≠ .accum := by decide

theorem witness_RddigReturnsTheDigestWord :
    (held .sha512 .done 0 .ok).phase = .done ∧ (held .sha512 .accum 0 .ok).phase ≠ .done
    ∧ shown (exec (.rddig 7) (held .sha512 .done 0 .ok)) = some (some ⟨0, 0x5BE0CD19137E2179⟩, .done, 0, .ok) := by decide

theorem witness_PhaseLegalityTable :
    (held .sha256 .accum 0 .ok).phase ≠ .final
    ∧ (Instr.eoi = .eoi ∧ (held .sha256 .accum 0 .ok).phase = .accum)
    ∧ ((∃ k, Instr.rddig 0 = .rddig k) ∧ (held .sha256 .done 0 .ok).phase = .done)
    ∧ ¬ (Instr.start = .start ∧ (held .sha256 .accum 0 .ok).phase = .empty) := by
  refine ⟨by decide, by decide, ⟨⟨0, rfl⟩, by decide⟩, by decide⟩

/-- A command answers with code 1, one with code 2, and a FAULTED core exists. -/
theorem witness_FatalErrorsArePrecise :
    shown (exec .ioerr (held .sha256 .accum 0 .ok)) = some (some ⟨1, 0⟩, .faulted, 0, .ioFault)
    ∧ shown (exec (.data 65) (held .sha256 .accum 0 .ok)) = some (some ⟨2, 0⟩, .faulted, 0, .contract)
    ∧ (held .sha256 .faulted 0 .ioFault).phase = .faulted := by decide

/-- A step answers with code 3, one with code 4, and one with code 4 from FAULTED. -/
theorem witness_RejectedCommandsAreNotIssued :
    (asked (held .sha256 .done 0 .ok) 0x60000008 []).inputs = .request ⟨0x60000008, []⟩ :: []
    ∧ shown (step (asked (held .sha256 .done 0 .ok) 0x60000008 [])) = some (some ⟨3, 0⟩, .done, 0, .illegal)
    ∧ shown (step (asked (held .sha256 .accum 5 .ok) 0x20000000 [])) = some (some ⟨4, 0⟩, .accum, 5, .badState)
    ∧ shown (step (asked (held .sha256 .faulted 5 .contract) 0x20000000 []))
      = some (some ⟨4, 0⟩, .faulted, 5, .contract) := by decide

/-- INIT, a success with ERR set, a fatal error outside FAULTED, a rejection in FAULTED, and a reset. -/
theorem witness_ErrHoldsTheMostRecentError :
    decode 0x10000000 = .instr .init
    ∧ shown (step (asked (held .sha256 .faulted 0 .contract) 0x10000000 [])) = some (some ⟨0, 0⟩, .empty, 0, .ok)
    ∧ shown (step (asked (held .sha256 .empty 0 .illegal) 0x20000000 [])) = some (some ⟨0, 0⟩, .accum, 0, .illegal)
    ∧ shown (step (asked (held .sha256 .accum 0 .illegal) 0x40000000 [])) = some (some ⟨1, 0⟩, .faulted, 0, .ioFault)
    ∧ shown (step (asked (held .sha256 .faulted 0 .ioFault) 0x30000000 [])) = some (some ⟨4, 0⟩, .faulted, 0, .ioFault)
    ∧ shown (step { held .sha256 .faulted 0 .ioFault with inputs := [.reset] }) = some (none, .empty, 0, .ok) := by
  refine ⟨?_, ?_, ?_, ?_, ?_, ?_⟩ <;> decide

theorem witness_FaultedIsLeftOnlyByInit :
    (asked (held .sha256 .faulted 2 .ioFault) 0x30000001 []).phase = .faulted
    ∧ shown (step (asked (held .sha256 .faulted 2 .ioFault) 0x30000001 [])) = some (some ⟨4, 0⟩, .faulted, 2, .ioFault)
    ∧ shown (step (asked (held .sha256 .faulted 2 .ioFault) 0x10000000 [])) = some (some ⟨0, 0⟩, .empty, 0, .ok) := by decide

theorem witness_DoneKeepsTheDigest :
    (held .sha256 .done 0 .ok).phase = .done
    ∧ ({ held .sha256 .done 0 .ok with inputs := [.reset] } : State).inputs = .reset :: []
    ∧ shown (step (asked (held .sha256 .done 0 .ok) 0x70000000 [])) = some (some ⟨3, 0⟩, .done, 0, .illegal)
    ∧ shown (exec .ioerr (held .sha256 .done 0 .ok)) = some (some ⟨4, 0⟩, .done, 0, .badState) := by decide

/-- Each command of the frame statements answers a next state. -/
theorem witness_Frames :
    nextOf (exec .rdstat State.reset) ≠ none ∧ nextOf (exec (.rddig 3) State.reset) ≠ none
    ∧ nextOf (exec (.rddig 3) (held .sha256 .done 0 .ok)) ≠ none
    ∧ nextOf (exec .start State.reset) ≠ none ∧ nextOf (exec .ioerr State.reset) ≠ none
    ∧ nextOf (exec .eoi (held .sha256 .accum 56 .ok)) ≠ none ∧ nextOf (exec .init State.reset) ≠ none := by
  refine ⟨?_, ?_, ?_, ?_, ?_, ?_, ?_⟩ <;> exact Option.some_ne_none _

/-- Bytes 19 and 63 lie just outside BUF[20..62], which the command writes; byte 20 does not. -/
theorem witness_FrameOfData :
    (19 < (held .sha256 .accum 20 .ok).fill.toNat ∧ (held .sha256 .accum 20 .ok).fill.toNat + (43 : BitVec 8).toNat ≤ 63)
    ∧ (nextOf (exec (.data 43) (held .sha256 .accum 20 .ok))).map (fun t => (t.buf[19]?, t.buf[20]?, t.buf[63]?))
      = some (some 0, some 1, some 0) := by decide

/-- Steps that keep H, put the IV, compress BUF, and finalize. -/
theorem witness_DigestIsWrittenOnlyByCompressionAndInit :
    (nextOf (step (asked State.reset 0x50000000 []))).map (fun t => t.digest) = some (.sha256 iv256)
    ∧ (nextOf (step (asked (held .sha256 .done 0 .ok) 0x10000000 []))).map (fun t => t.digest) = some (.sha256 iv256)
    ∧ shown (step (asked (held .sha256 .accum 0 .ok) 0x30000040 [])) = some (some ⟨0, 0⟩, .accum, 0, .ok)
    ∧ shown (step (asked (held .sha256 .accum 0 .ok) 0x30000000 [])) = some (some ⟨0, 0⟩, .done, 0, .ok) := by decide

theorem witness_MsgLenIsWrittenOnlyByStart :
    (nextOf (exec .start (held .sha512 .empty 0 .ok))).map (fun t => t.msgLen) = some 0x0102030405060708
    ∧ (nextOf (exec .init { held .sha512 .done 0 .ok with msgLen := 7 })).map (fun t => t.msgLen) = some 0
    ∧ (nextOf (exec .eoi { held .sha512 .accum 0 .ok with msgLen := 7 })).map (fun t => t.msgLen) = some 7 := by decide

theorem witness_VariantIsHardwired :
    (nextOf (step { held .sha512 .done 0 .ok with inputs := [.reset] })).map (fun t => t.variant) = some .sha512 := by decide

/-- Two payloads that differ only in lane 8, which START does not use, and only in lane 1, which DATA 1 does not use. -/
theorem witness_UnusedPayloadIsIgnored :
    (∀ j, j < 8 → lane [0, 0, 0, 0, 0, 0, 0, 3, 1] j = lane [0, 0, 0, 0, 0, 0, 0, 3, 2] j)
    ∧ (∀ j, j < (1 : BitVec 8).toNat → lane [5, 6] j = lane [5, 7] j)
    ∧ nextOf (exec .start { State.reset with payload := [0, 0, 0, 0, 0, 0, 0, 3, 1] }) ≠ none := by
  refine ⟨by decide, by decide, ?_⟩
  exact Option.some_ne_none _

/-- The invariant holds in a reset, an accumulating, a finished and a faulted core, and each of them takes a step. -/
theorem witness_StepKeepsInv :
    (State.resetOf .sha512).Inv ∧ (held .sha256 .accum 63 .badState).Inv ∧ (held .sha512 .accum 127 .ok).Inv
    ∧ (held .sha256 .done 0 .illegal).Inv ∧ (held .sha256 .faulted 63 .contract).Inv
    ∧ nextOf (step (asked (held .sha256 .accum 63 .badState) 0x30000001 [1])) ≠ none := by
  refine ⟨?_, ?_, ?_, ?_, ?_, Option.some_ne_none _⟩ <;> decide +kernel

theorem witness_RdstatReturnsTheStatusWord : (held .sha512 .accum 127 .ok).Inv := by decide +kernel

theorem witness_StartBeginsAnEmptyMessage :
    (held .sha512 .empty 0 .badState).Inv ∧ (held .sha512 .empty 0 .badState).phase = .empty := by
  decide +kernel

/-- A message of 3 bytes and a DATA to B − 1 and to B; and a message of a whole block. -/
theorem witness_DataAbsorbsItsBytes :
    (filled .sha256 [1, 2, 3]).Absorbed [1, 2, 3] ∧ (61 : BitVec 8) ≠ 0
    ∧ (filled .sha256 [1, 2, 3]).fill.toNat + (60 : BitVec 8).toNat ≤ blockBytes (filled .sha256 [1, 2, 3]).variant
    ∧ (filled .sha256 [1, 2, 3]).fill.toNat + (61 : BitVec 8).toNat ≤ blockBytes (filled .sha256 [1, 2, 3]).variant := by
  decide

/-- A block of 64 bytes absorbed: its compression is in H. -/
theorem witness_EoiGivesTheMessageDigest :
    (filled .sha256 (List.replicate 55 0x61)).Absorbed (List.replicate 55 0x61)
    ∧ (filled .sha256 (List.replicate 56 0x61)).Absorbed (List.replicate 56 0x61)
    ∧ ({ filled .sha256 [] with
        digest := compress (Digest.initial .sha256) (List.replicate 64 0x61)
        buf := List.replicate 64 0x61 } : State).Absorbed (List.replicate 64 0x61) := by
  refine ⟨by decide, by decide, by decide, by decide, by decide, rfl, by decide⟩

/-- The clause on two DATA commands: 20 + 24 + 20 bytes fill the block. -/
theorem witness_DataDeliversBytes_split :
    (held .sha256 .accum 20 .ok).phase = .accum
    ∧ (held .sha256 .accum 20 .ok).buf.length = blockBytes (held .sha256 .accum 20 .ok).variant
    ∧ (24 : BitVec 8) ≠ 0 ∧ (20 : BitVec 8) ≠ 0
    ∧ (held .sha256 .accum 20 .ok).fill.toNat + (24 : BitVec 8).toNat + (20 : BitVec 8).toNat
      ≤ blockBytes (held .sha256 .accum 20 .ok).variant := by decide

theorem witness_PadWithoutSpillover :
    (List.replicate 64 (7 : Byte)).length = blockBytes .sha256 ∧ 55 < lowerBound .sha256 ∧ 0 < lowerBound .sha256
    ∧ (List.replicate 128 (7 : Byte)).length = blockBytes .sha512 ∧ 111 < lowerBound .sha512
    ∧ 63 < blockBytes .sha256 := by decide

theorem witness_PadWithSpillover :
    (List.replicate 64 (7 : Byte)).length = blockBytes .sha256
    ∧ (lowerBound .sha256 ≤ 56 ∧ 56 < blockBytes .sha256) ∧ (lowerBound .sha256 ≤ 63 ∧ 63 < blockBytes .sha256)
    ∧ (lowerBound .sha512 ≤ 112 ∧ 127 < blockBytes .sha512) := by decide

theorem witness_LengthFieldKeepsTheLow64Bits :
    (BitVec.ofNat 64 (2 ^ 61 - 1)).toNat < 2 ^ 61 ∧ 7 < 8
    ∧ (List.replicate 128 (7 : Byte)).length = blockBytes .sha512 ∧ 127 < blockBytes .sha512 := by decide +kernel

theorem witness_StartRequestCarriesItsLength : State.reset.phase = .empty := by decide

theorem witness_WordFromBytesIsBigEndian :
    ([0xDE, 0xAD, 0xBE, 0xEF] : List Byte).length = 4 ∧ ([] : List Byte).length ≠ 4
    ∧ ([1, 2, 3, 4, 5] : List Byte).length ≠ 4 := by decide

/-- n = w, and the lowest and highest bit. -/
theorem witness_RotationMovesEachBit : 32 ≤ 32 ∧ 0 < 32 ∧ 31 < 32 := by decide

theorem witness_ShiftIsLogical : 32 ≤ 31 + 1 := by decide

theorem witness_ChooseAndMajority : 0 < 32 ∧ 31 < 32 := by decide

theorem witness_SigmasBitByBit :
    sha256Params.bigSigma0.inRange 32 = true ∧ sha512Params.littleSigma1.inRange 64 = true
    ∧ (⟨1, 31, 31⟩ : Triple).inRange 32 = true ∧ 31 < 32 := by decide

theorem witness_ScheduleRecurrence :
    (List.replicate 64 (0 : Byte)).length = 16 * 4 ∧ 16 ≤ (sha256Params : Params (8 * 4)).rounds
    ∧ 15 < 16 ∧ (16 ≤ 16 ∧ 16 < (sha256Params : Params (8 * 4)).rounds) ∧ 63 < (sha256Params : Params (8 * 4)).rounds := by
  decide

theorem witness_CompressionIsTheRoundLoop :
    (16 ≤ sha256Params.rounds ∧ sha256Params.k.length = sha256Params.rounds)
    ∧ (16 ≤ sha512Params.rounds ∧ sha512Params.k.length = sha512Params.rounds) := by decide

theorem witness_OnlyTheAdmittedTuplesRun :
    ({ sha256Params with rounds := 63 } : Params 32) ≠ sha256Params
    ∧ ({ sha512Params with block := 64 } : Params 64) ≠ sha512Params ∧ 16 ≠ 32 ∧ 16 ≠ 64 := by
  refine ⟨fun h => ?_, fun h => ?_, by decide, by decide⟩
  · exact absurd (congrArg Params.rounds h) (by decide)
  · exact absurd (congrArg Params.block h) (by decide)

/-- A DATA to B − 1 and to B, an EOI at LB − 1 and at LB, and a command outside its phases. -/
theorem witness_CompressionsOfEachCommand :
    (held .sha256 .accum 63 .ok).buf.length = blockBytes (held .sha256 .accum 63 .ok).variant
    ∧ (held .sha256 .accum 63 .ok).fill.toNat < blockBytes (held .sha256 .accum 63 .ok).variant
    ∧ Instr.eoi ≠ .init
    ∧ compressionsRun (.data 1) (held .sha256 .accum 63 .ok) = 1 ∧ compressionsRun (.data 1) (held .sha256 .accum 62 .ok) = 0
    ∧ compressionsRun .eoi (held .sha512 .accum 111 .ok) = 1 ∧ compressionsRun .eoi (held .sha512 .accum 112 .ok) = 2
    ∧ compressionsRun .eoi (held .sha512 .done 0 .ok) = 0 := by decide

end Sys2Proof.Tests
end

section
/-! PROOFS. Which parameter tuples give an instance (R7, R8): what `admittedVariant` answers at each width, and what
`instantiate` does with that answer. -/

namespace Sys2Proof.Machine

@[simp] theorem admittedVariant_sha256Params : admittedVariant 32 sha256Params = some .sha256 := by
  simp only [admittedVariant, if_pos]

@[simp] theorem admittedVariant_sha512Params : admittedVariant 64 sha512Params = some .sha512 := by
  simp only [admittedVariant, if_pos]

theorem admittedVariant_of_ne_sha256Params {p : Params 32} (h : p ≠ sha256Params) : admittedVariant 32 p = none :=
  if_neg h

theorem admittedVariant_of_ne_sha512Params {p : Params 64} (h : p ≠ sha512Params) : admittedVariant 64 p = none :=
  if_neg h

theorem admittedVariant_of_other_width {w : Nat} (p : Params w) (h32 : w ≠ 32) (h64 : w ≠ 64) :
    admittedVariant w p = none := by
  unfold admittedVariant
  split
  · exact absurd rfl h32
  · exact absurd rfl h64
  · rfl

theorem instantiate_of_admitted {w : Nat} {p : Params w} {v : Variant} (h : admittedVariant w p = some v) :
    instantiate w p = .next (State.resetOf v) := by
  simp only [instantiate, h]

theorem instantiate_of_not_admitted {w : Nat} {p : Params w} (h : admittedVariant w p = none) :
    instantiate w p = .refused .unadmittedTuple := by
  simp only [instantiate, h]

theorem sha256Params_wellFormed : sha256Params.WellFormed := by decide

theorem sha512Params_wellFormed : sha512Params.WellFormed := by decide

/-- Settles O57, by what `admittedVariant` answers for each of the two tuples, for the other tuples of their two widths
and at every other width. -/
theorem onlyTheAdmittedTuplesRun : Obligations.OnlyTheAdmittedTuplesRun :=
  ⟨instantiate_of_admitted admittedVariant_sha256Params,
   instantiate_of_admitted admittedVariant_sha512Params,
   fun _ hne => instantiate_of_not_admitted (admittedVariant_of_ne_sha256Params hne),
   fun _ hne => instantiate_of_not_admitted (admittedVariant_of_ne_sha512Params hne),
   fun _ p h32 h64 => instantiate_of_not_admitted (admittedVariant_of_other_width p h32 h64),
   sha256Params_wellFormed, sha512Params_wellFormed⟩

end Sys2Proof.Machine
end

section
/-! PROOFS. The state elements (10_state.md): what a step can do, said once for every host event, and from it who writes
H (R16), ERR (R22) and VARIANT (R24); the fields of the status word (R23); reset beside INIT (R29, R141). -/

namespace Sys2Proof.Machine

/-! ### The step on each host event -/

theorem step_of_no_event {s : State} (h : s.inputs = []) : step s = .next (idle s) := by
  simp only [step, h]

theorem step_of_reset {s : State} {rest : List HostEvent} (h : s.inputs = .reset :: rest) :
    step s = .next (assertReset rest s) := by
  simp only [step, h]

theorem step_of_resetDuring {s : State} {r : Request} {rest : List HostEvent}
    (h : s.inputs = .resetDuring r :: rest) : step s = .next (assertReset rest s) := by
  simp only [step, h]

/-- What a step has done: idled, reset the core, rejected the request, or run its command's rule in a legal phase
(R109, R141, R142, R148). -/
theorem step_cases {s t : State} (ht : step s = .next t) :
    (s.inputs = [] ∧ t = idle s)
    ∨ (∃ rest, (s.inputs = .reset :: rest ∨ ∃ r, s.inputs = .resetDuring r :: rest) ∧ t = assertReset rest s)
    ∨ (∃ r rest e, s.inputs = .request r :: rest ∧ t = reject e (presentRequest r rest s))
    ∨ (∃ r rest i, s.inputs = .request r :: rest ∧ decode r.cmd = .instr i ∧ legalIn i s.phase = true
        ∧ t = ruleOf i (presentRequest r rest s)) := by
  rcases h : s.inputs with _ | ⟨⟨r⟩ | _ | ⟨r⟩, rest⟩
  · rw [step_of_no_event h] at ht
    exact .inl ⟨rfl, (Host.Outcome.next.inj ht).symm⟩
  · rcases step_request h ht with ⟨-, -, hr⟩ | ⟨-, -, -, hr⟩ | ⟨i, hd, hl, hr⟩
    · exact .inr (.inr (.inl ⟨r, rest, _, rfl, hr⟩))
    · exact .inr (.inr (.inl ⟨r, rest, _, rfl, hr⟩))
    · exact .inr (.inr (.inr ⟨r, rest, i, rfl, hd, hl, hr⟩))
  · rw [step_of_reset h] at ht
    exact .inr (.inl ⟨rest, .inl rfl, (Host.Outcome.next.inj ht).symm⟩)
  · rw [step_of_resetDuring h] at ht
    exact .inr (.inl ⟨rest, .inr ⟨r, rfl⟩, (Host.Outcome.next.inj ht).symm⟩)

/-- The commands of format FD are legal in ACCUM alone (R112). -/
theorem accum_of_legalIn_data {n : BitVec 8} {p : Phase} (h : legalIn (.data n) p = true) : p = .accum := by
  simpa [legalIn] using h

theorem accum_of_legalIn_eoi {p : Phase} (h : legalIn .eoi p = true) : p = .accum := by
  simpa [legalIn] using h

theorem accum_of_legalIn_ioerr {p : Phase} (h : legalIn .ioerr p = true) : p = .accum := by
  simpa [legalIn] using h

/-! ### H (R16) -/

/-- What a command's rule makes of H: nothing, the IV, the compression of the BUF it leaves, or that of the padded
blocks. -/
theorem ruleOf_digest (i : Instr) (s : State) :
    (ruleOf i s).digest = s.digest
    ∨ (i = .init ∧ (ruleOf i s).digest = Digest.initial s.variant)
    ∨ (∃ n, i = .data n ∧ (ruleOf i s).digest = compress s.digest (ruleOf i s).buf)
    ∨ (i = .eoi ∧ (ruleOf i s).digest = compressAll s.digest (finalBlocks s)) := by
  cases i with
  | init => exact .inr (.inl ⟨rfl, rfl⟩)
  | eoi => exact .inr (.inr (.inr ⟨rfl, rfl⟩))
  | data n =>
    simp only [ruleOf]
    rcases deliver_cases n s with ⟨-, he⟩ | ⟨-, he⟩
    · exact .inl (by simp [he])
    · obtain ⟨dg, f, ha, -, hkept | hcompressed⟩ := absorb_spec (dataBytes n s) s
      · exact .inl (by simp [he, ha, hkept])
      · exact .inr (.inr (.inl ⟨n, rfl, by simp [he, ha, hcompressed]⟩))
  | start => exact .inl rfl
  | ioerr => exact .inl rfl
  | rdstat => exact .inl rfl
  | rddig k => exact .inl rfl

/-- Settles O31, by what each host event makes of H and, for a command that runs, what its rule does. -/
theorem digestIsWrittenOnlyByCompressionAndInit : Obligations.DigestIsWrittenOnlyByCompressionAndInit := by
  intro s t ht
  rcases step_cases ht with ⟨-, rfl⟩ | ⟨rest, hreset, rfl⟩ | ⟨r, rest, e, -, rfl⟩ | ⟨r, rest, i, hin, hd, hl, rfl⟩
  · exact .inl rfl
  · refine .inr (.inl ⟨rfl, ?_⟩)
    rcases hreset with h | ⟨r, h⟩
    · exact .inl ⟨rest, h⟩
    · exact .inr (.inl ⟨r, rest, h⟩)
  · exact .inl (by simp)
  · rcases ruleOf_digest i (presentRequest r rest s) with h | ⟨rfl, h⟩ | ⟨n, rfl, h⟩ | ⟨rfl, h⟩
    · exact .inl h
    · exact .inr (.inl ⟨h, .inr (.inr ⟨r, rest, hin, hd⟩)⟩)
    · exact .inr (.inr (.inl ⟨r, rest, n, hin, hd, accum_of_legalIn_data hl, h⟩))
    · exact .inr (.inr (.inr ⟨r, rest, hin, hd, accum_of_legalIn_eoi hl, h⟩))

/-! ### ERR (R22) -/

/-- A rule other than INIT's answers OK and keeps ERR, or it enters the fault phase, which it can do only from ACCUM. -/
theorem ruleOf_ok_or_fatal {i : Instr} {s : State} (hi : i ≠ .init) (hl : legalIn i s.phase = true) :
    ((∃ d, (ruleOf i s).resp = some ⟨0, d⟩) ∧ (ruleOf i s).err = s.err)
    ∨ (s.phase = .accum ∧ ∃ e : ErrCode, e.code ≠ 0 ∧ ruleOf i s = fatal e s) := by
  cases i with
  | init => exact absurd rfl hi
  | data n =>
    simp only [ruleOf]
    rcases deliver_cases n s with ⟨-, he⟩ | ⟨-, he⟩
    · exact .inr ⟨accum_of_legalIn_data hl, .contract, by decide, he⟩
    · obtain ⟨dg, f, ha, -⟩ := absorb_spec (dataBytes n s) s
      exact .inl ⟨⟨0, by simp [he, ErrCode.code]⟩, by simp [he, ha]⟩
  | ioerr => exact .inr ⟨accum_of_legalIn_ioerr hl, .ioFault, by decide, rfl⟩
  | start => exact .inl ⟨⟨_, rfl⟩, rfl⟩
  | eoi => exact .inl ⟨⟨_, rfl⟩, rfl⟩
  | rdstat => exact .inl ⟨⟨_, rfl⟩, rfl⟩
  | rddig k => exact .inl ⟨⟨_, rfl⟩, rfl⟩

/-- What a request reports: INIT clears ERR, a command without error keeps it, and an error is answered with its code and
recorded unless the core was FAULTED (R22, R53). -/
theorem step_request_report {s t : State} {r : Request} {rest : List HostEvent}
    (h : s.inputs = .request r :: rest) (ht : step s = .next t) :
    (decode r.cmd = .instr .init ∧ t.resp = some ⟨0, 0⟩ ∧ t.err = .ok)
    ∨ (decode r.cmd ≠ .instr .init ∧ (∃ d, t.resp = some ⟨0, d⟩) ∧ t.err = s.err)
    ∨ (decode r.cmd ≠ .instr .init ∧ ∃ e : ErrCode, e.code ≠ 0 ∧ t.resp = some ⟨e.code, 0⟩
        ∧ t.err = if s.phase = .faulted then s.err else e) := by
  rcases step_request h ht with ⟨why, hd, rfl⟩ | ⟨i, hd, hl, rfl⟩ | ⟨i, hd, hl, rfl⟩
  · exact .inr (.inr ⟨by simp [hd], .illegal, by decide, rfl, reject_err _ _⟩)
  · have hi : i ≠ .init := by rintro rfl; simp [legalIn] at hl
    exact .inr (.inr ⟨by simp [hd, hi], .badState, by decide, rfl, reject_err _ _⟩)
  · by_cases hi : i = .init
    · subst hi
      exact .inl ⟨hd, rfl, rfl⟩
    · have hne : decode r.cmd ≠ .instr .init := by simp [hd, hi]
      rcases ruleOf_ok_or_fatal (s := presentRequest r rest s) hi hl with ⟨hresp, herr⟩ | ⟨hp, e, hc, he⟩
      · exact .inr (.inl ⟨hne, hresp, herr⟩)
      · have hp : s.phase = .accum := hp
        exact .inr (.inr ⟨hne, e, hc, by rw [he, fatal_resp], by simp [he, hp]⟩)

/-- Settles O24, by the three reports of a request: INIT's, that of a command without error, and that of an error. -/
theorem errHoldsTheMostRecentError : Obligations.ErrHoldsTheMostRecentError := by
  refine ⟨fun s t r rest out hin ht hout => ?_, fun s t rest hin ht => ?_⟩
  · rcases step_request_report hin ht with
      ⟨hd, hresp, herr⟩ | ⟨hd, ⟨d, hresp⟩, herr⟩ | ⟨hd, e, hc, hresp, herr⟩ <;>
      obtain rfl := Option.some.inj (hout.symm.trans hresp)
    · exact ⟨fun _ => herr, fun h => absurd hd h, fun h => absurd rfl h, fun h => absurd rfl h⟩
    · exact ⟨fun h => absurd h hd, fun _ _ => herr, fun h => absurd rfl h, fun h => absurd rfl h⟩
    · exact ⟨fun h => absurd h hd, fun _ h => absurd h hc, fun _ hp => by rw [herr, if_neg hp],
        fun _ hp => by rw [herr, if_pos hp]⟩
  · rw [step_of_reset hin] at ht
    rw [← Host.Outcome.next.inj ht, assertReset_err]

/-! ### The status word (R23) -/

/-- A slice of the status word is a slice of its six fields side by side, at the width they add up to. -/
theorem extractLsb'_statusWord (s : State) (start len : Nat) :
    (statusWord s).extractLsb' start len
      = BitVec.extractLsb' start len
          ((0 : BitVec 15) ++ variantBit s.variant ++ s.fill ++ s.err.code ++ (0 : BitVec 1) ++ s.phase.code) := rfl

/-- The fields of the status word, from bit 0 up: PHASE, a reserved 0, ERR, FILL, VARIANT and reserved zeros (R23). -/
theorem statusWord_fields (s : State) :
    (statusWord s).extractLsb' 0 3 = s.phase.code
    ∧ (statusWord s).extractLsb' 3 1 = 0
    ∧ (statusWord s).extractLsb' 4 4 = s.err.code
    ∧ (statusWord s).extractLsb' 8 8 = s.fill
    ∧ (statusWord s).extractLsb' 16 1 = variantBit s.variant
    ∧ (statusWord s).extractLsb' 17 15 = 0 := by
  simp (disch := decide) only [extractLsb'_statusWord, BitVec.extractLsb'_append_eq_of_le,
    BitVec.extractLsb'_append_eq_of_add_le, Nat.reduceSub, BitVec.extractLsb'_eq_self, and_self]

/-- The 32-bit status word has no bits above bit 31. -/
theorem statusWord_above_bit_31 (s : State) : (statusWord s).extractLsb' 32 32 = 0 := by
  ext i hi
  simp

/-- What a slice of the status word is, the same slice of RDSTAT's zero-extended data word is (R23). -/
theorem statusWord_zeroExtend_slice {s : State} {start len : Nat} {x : BitVec len}
    (hx : (statusWord s).extractLsb' start len = x) (h : start + len ≤ 64 := by decide) :
    ((statusWord s).zeroExtend 64).extractLsb' start len = x :=
  (BitVec.extractLsb'_setWidth_of_le h).trans hx

/-- PHASE is never read as 2 nor as 5 to 7 when FINAL is not held (R20). -/
theorem phase_code_of_ne_final {p : Phase} (h : p ≠ .final) : p.code.toNat ∈ [0, 1, 3, 4] := by
  cases p with
  | final => exact absurd rfl h
  | empty => decide
  | accum => decide
  | done => decide
  | faulted => decide

/-- Settles O19: each field of the data word is that field of the status word, and the invariant bounds PHASE and FILL. -/
theorem rdstatReturnsTheStatusWord : Obligations.RdstatReturnsTheStatusWord := by
  intro s
  obtain ⟨hphase, hbit3, herr, hfill, hvariant, hhigh⟩ := statusWord_fields s
  have hphase := statusWord_zeroExtend_slice hphase
  have hfill := statusWord_zeroExtend_slice hfill
  refine ⟨(statusWord s).zeroExtend 64, rfl, hphase, statusWord_zeroExtend_slice hbit3,
    statusWord_zeroExtend_slice herr, hfill, statusWord_zeroExtend_slice hvariant,
    statusWord_zeroExtend_slice hhigh, statusWord_zeroExtend_slice (statusWord_above_bit_31 s),
    fun hinv => ?_⟩
  obtain ⟨-, hlt, hfinal, -⟩ := hinv
  rw [hphase, hfill]
  exact ⟨phase_code_of_ne_final hfinal, hlt⟩

/-! ### VARIANT (R24) -/

/-- No step changes VARIANT (R24). -/
theorem step_variant {s t : State} (ht : step s = .next t) : t.variant = s.variant := by
  rcases step_cases ht with ⟨-, rfl⟩ | ⟨rest, -, rfl⟩ | ⟨r, rest, e, -, rfl⟩ | ⟨r, rest, i, -, -, -, rfl⟩
  · exact idle_variant s
  · exact assertReset_variant rest s
  · exact reject_variant e (presentRequest r rest s)
  · exact ruleOf_variant i (presentRequest r rest s)

/-- Settles O33: every step keeps VARIANT, and bit 16 of the status word is its bit. -/
theorem variantIsHardwired : Obligations.VariantIsHardwired := by
  refine ⟨fun s t => step_variant, fun s => ?_⟩
  obtain ⟨-, -, -, -, hvariant, -⟩ := statusWord_fields s
  rw [hvariant, State.variant]
  cases s.digest <;> rfl

/-! ### Reset (R29, R141) -/

/-- INIT is legal in every phase, so it always runs its rule (R112). -/
theorem exec_init (s : State) : exec .init s = .next (respond .ok 0 (reinitialize s)) := rfl

/-- Reset leaves the architectural state that INIT leaves (R29). -/
theorem assertReset_sameCore_init (rest : List HostEvent) (s : State) :
    (assertReset rest s).SameCore (respond .ok 0 (reinitialize s)) :=
  ⟨rfl, rfl, rfl, rfl, rfl, rfl⟩

/-- Settles O9, by the values of R29 that both the reset input and INIT write. -/
theorem resetGivesTheResetValues : Obligations.ResetGivesTheResetValues := by
  intro s rest hin
  refine ⟨_, _, step_of_reset hin, exec_init s, assertReset_sameCore_init rest s, ?_, ?_, rfl, rfl, rfl, rfl, rfl, rfl⟩
  · rw [assertReset_digest]
    cases s.variant <;> rfl
  · rw [assertReset_buf]
    cases s.variant <;> rfl

end Sys2Proof.Machine
end

section
/-! PROOFS. The length field of the padding (R41, R90, R91): the value of L64, the bytes of the field, and its place at the
end of the last block that Pad gives. -/

namespace Sys2Proof.Machine

/-! ### L64 and its bytes -/

theorem bitLength_toNat (len : Word64) : (bitLength len).toNat = len.toNat * 8 % 2 ^ 64 :=
  BitVec.toNat_ofNat _ _

/-- The product is exact as long as it fits in 64 bits (R91). -/
theorem bitLength_toNat_of_lt {len : Word64} (h : len.toNat < 2 ^ 61) : (bitLength len).toNat = len.toNat * 8 := by
  rw [bitLength_toNat]
  exact Nat.mod_eq_of_lt (by omega)

theorem bitLength_eq_shiftLeft (len : Word64) : bitLength len = len <<< 3 := by
  apply BitVec.eq_of_toNat_eq
  rw [bitLength_toNat, BitVec.toNat_shiftLeft, Nat.shiftLeft_eq]

/-- The shift drops len[63:61] and keeps bits [60:0] above three zeros (R91). -/
theorem bitLength_eq_low61_append (len : Word64) : bitLength len = len.extractLsb' 0 61 ++ (0 : BitVec 3) := by
  rw [bitLength_eq_shiftLeft, BitVec.shiftLeft_eq_concat_of_lt (by decide)]
  rfl

/-- Byte j of `n` big-endian bytes is the j-th from the top (R11). -/
theorem bytesOfWord_getD {w n j : Nat} (v : BitVec w) (h : j < n) :
    (bytesOfWord n v).getD j 0 = v.extractLsb' (8 * (n - 1 - j)) 8 := by
  simp [bytesOfWord, List.getD, h]

theorem lengthField_getD (len : Word64) {j : Nat} (h : j < 8) :
    (lengthField len).getD j 0 = (bitLength len).extractLsb' (56 - 8 * j) 8 := by
  have hstart : 8 * (8 - 1 - j) = 56 - 8 * j := by omega
  rw [lengthField, bytesOfWord_getD _ h, hstart]

/-! ### Its place in the last block -/

/-- The last block that Pad gives, with or without spillover, ends in the length field (R88, R89). -/
theorem pad_getLast?_ends_in_lengthField (v : Variant) (buf : List Byte) (fill : Nat) (len : Word64) :
    ∃ front, (pad v buf fill len).getLast? = some (front ++ lengthField len) := by
  unfold pad
  split
  · exact ⟨_, rfl⟩
  · exact ⟨_, rfl⟩

/-- The last block is B − 8 bytes and then the length field, whatever the default of `getLastD` (R90). -/
theorem pad_getLastD_eq_append {v : Variant} {buf : List Byte} {fill : Nat} {len : Word64}
    (hb : buf.length = blockBytes v) (hf : fill < blockBytes v) (dflt : List Byte) :
    ∃ front : List Byte, front.length = blockBytes v - 8
      ∧ (pad v buf fill len).getLastD dflt = front ++ lengthField len := by
  obtain ⟨front, hlast⟩ := pad_getLast?_ends_in_lengthField v buf fill len
  have hlength := pad_block_length hb hf _ (List.mem_of_getLast? hlast)
  rw [List.length_append, lengthField_length] at hlength
  exact ⟨front, by omega, by rw [List.getLastD_eq_getLast?, hlast, Option.getD_some]⟩

/-- The final block has B bytes, and dropping all but the last 8 leaves the length field (R90). -/
theorem pad_last_drop_and_length {v : Variant} {buf : List Byte} {fill : Nat} {len : Word64}
    (hb : buf.length = blockBytes v) (hf : fill < blockBytes v) :
    ((pad v buf fill len).getLastD []).drop (blockBytes v - 8) = lengthField len
      ∧ ((pad v buf fill len).getLastD []).length = blockBytes v := by
  obtain ⟨front, hfront, hlast⟩ := pad_getLastD_eq_append (len := len) hb hf []
  have hB := blockBytes_cases v
  rw [hlast]
  exact ⟨List.drop_left' hfront, by rw [List.length_append, hfront, lengthField_length]; omega⟩

/-- Settles O43, by the value of L64, the bytes of the length field and its place in the last block; the two examples are
those of R91. -/
theorem lengthFieldKeepsTheLow64Bits : Obligations.LengthFieldKeepsTheLow64Bits := by
  refine ⟨fun len => ⟨bitLength_toNat len, bitLength_toNat_of_lt, bitLength_eq_low61_append len,
    fun _ => lengthField_getD len⟩, fun _ _ _ _ => pad_last_drop_and_length, ?_, ?_⟩
  · decide
  · decide

end Sys2Proof.Machine
end

section
/-! PROOFS. The command words (30_encoding.md): the words of the seven commands and the ILLEGAL words (R55 to R61), what
a step answers to a request (R53, R131), the operand of START (R56) and the payload lanes that a command reads (R62). -/

namespace Sys2Proof

/-! ### The fields of a word (R54, R55) -/

theorem opField_append_reservedF0 (w : Cmd) : opField w ++ reservedF0 w = w := by
  rw [opField, reservedF0, BitVec.extractLsb'_append_extractLsb'_eq_extractLsb' (by decide)]
  exact BitVec.extractLsb'_eq_self

theorem opField_append_reservedFD_append_countField (w : Cmd) : opField w ++ reservedFD w ++ countField w = w := by
  rw [opField, reservedFD, countField, BitVec.extractLsb'_append_extractLsb'_eq_extractLsb' (by decide),
    BitVec.extractLsb'_append_extractLsb'_eq_extractLsb' (by decide)]
  exact BitVec.extractLsb'_eq_self

theorem opField_append_reservedFR_append_idxField (w : Cmd) : opField w ++ reservedFR w ++ idxField w = w := by
  rw [opField, reservedFR, idxField, BitVec.extractLsb'_append_extractLsb'_eq_extractLsb' (by decide),
    BitVec.extractLsb'_append_extractLsb'_eq_extractLsb' (by decide)]
  exact BitVec.extractLsb'_eq_self

/-! ### The words of the commands (R58, R59) -/

/-- A word that format F0 decodes is the word of its OP's command. -/
theorem decodeF0_instr {w : Cmd} {op : BitVec 4} {i j : Instr} (hi : i.WellFormed) (he : encode i = formatF0 op)
    (hop : (opField w).toNat = op.toNat) (h : decodeF0 i w = .instr j) : j.WellFormed ∧ w = encode j := by
  unfold decodeF0 at h
  split at h
  next hz =>
    obtain rfl := Decoded.instr.inj h
    exact ⟨hi, by rw [he, ← opField_append_reservedF0 w, BitVec.eq_of_toNat_eq hop, hz, formatF0]⟩
  next => cases h

/-- A word that format FD decodes is EOI's, or that of a DATA command with COUNT not 0. -/
theorem decodeFD_instr {w : Cmd} {j : Instr} (hop : (opField w).toNat = 3) (h : decodeFD w = .instr j) :
    j.WellFormed ∧ w = encode j := by
  unfold decodeFD at h
  split at h
  next hz =>
    have hw : w = formatFD 3 (countField w) := by
      conv_lhs => rw [← opField_append_reservedFD_append_countField w, BitVec.eq_of_toNat_eq (y := 3) hop, hz]
      rfl
    split at h
    next hc =>
      obtain rfl := Decoded.instr.inj h
      rw [hc] at hw
      exact ⟨rfl, hw⟩
    next hc =>
      obtain rfl := Decoded.instr.inj h
      exact ⟨by simpa [Instr.WellFormed, Instr.wf] using hc, hw⟩
  next => cases h

/-- A word that format FR decodes is that of an RDDIG command. -/
theorem decodeFR_instr {w : Cmd} {j : Instr} (hop : (opField w).toNat = 6) (h : decodeFR w = .instr j) :
    j.WellFormed ∧ w = encode j := by
  unfold decodeFR at h
  split at h
  next hz =>
    obtain rfl := Decoded.instr.inj h
    refine ⟨rfl, ?_⟩
    conv_lhs => rw [← opField_append_reservedFR_append_idxField w, BitVec.eq_of_toNat_eq (y := 6) hop, hz]
    rfl
  next => cases h

/-- A word that decodes to a command is that command's word. -/
theorem eq_encode_of_decode {w : Cmd} {i : Instr} (h : decode w = .instr i) : i.WellFormed ∧ w = encode i := by
  unfold decode at h
  split at h
  case h_1 hop => exact decodeF0_instr (op := 1) rfl rfl hop h
  case h_2 hop => exact decodeF0_instr (op := 2) rfl rfl hop h
  case h_3 hop => exact decodeFD_instr hop h
  case h_4 hop => exact decodeF0_instr (op := 4) rfl rfl hop h
  case h_5 hop => exact decodeF0_instr (op := 5) rfl rfl hop h
  case h_6 hop => exact decodeFR_instr hop h
  case h_7 => cases h

/-- A well-formed command's word decodes to it. -/
theorem decode_encode_of_wellFormed {i : Instr} (h : i.WellFormed) : decode (encode i) = .instr i := by
  cases i with
  | data count => revert count; decide
  | rddig idx => revert idx; decide
  | init => decide
  | start => decide
  | eoi => decide
  | ioerr => decide
  | rdstat => decide

/-- The decoder is the inverse of the encoder on the well-formed commands. -/
theorem decode_eq_instr_iff {w : Cmd} {i : Instr} : decode w = .instr i ↔ i.WellFormed ∧ w = encode i := by
  constructor
  · exact eq_encode_of_decode
  · rintro ⟨hi, rfl⟩
    exact decode_encode_of_wellFormed hi

/-- A word that is no command's word is ILLEGAL. -/
theorem decode_illegal_of_ne_encode {w : Cmd} (h : ∀ i, w ≠ encode i) : ∃ why, decode w = .illegal why := by
  cases hd : decode w with
  | instr i => exact absurd (eq_encode_of_decode hd).2 (h i)
  | illegal why => exact ⟨why, rfl⟩

/-! ### The opcode map's rows as match and mask (R58) -/

/-- A word is `x` above a `k`-bit operand field that holds `y` exactly when it matches `x` under the mask of the high
bits and its `k` low bits are `y`. -/
theorem eq_append_iff_masked {m k : Nat} (w : BitVec (m + k)) (x : BitVec m) (y : BitVec k) :
    w = x ++ y ↔ w &&& (BitVec.allOnes m ++ 0#k) = x ++ 0#k ∧ y = w.setWidth k := by
  have hmask (a : BitVec m) (b : BitVec k) : (a ++ b) &&& (BitVec.allOnes m ++ 0#k) = a ++ 0#k := by
    simp [BitVec.and_append]
  have hlow : w.extractLsb' k m ++ w.setWidth k = w := by
    rw [BitVec.setWidth_eq_extractLsb' (by omega), BitVec.extractLsb'_append_extractLsb'_eq_extractLsb' (by omega)]
    exact BitVec.extractLsb'_eq_self
  constructor
  · rintro rfl
    exact ⟨hmask x y, BitVec.setWidth_append_eq_right.symm⟩
  · rintro ⟨hhigh, rfl⟩
    rw [← hlow, hmask, BitVec.append_left_inj] at hhigh
    rw [← hhigh, hlow]

theorem eq_encode_data_iff (w : Cmd) (count : BitVec 8) :
    w = encode (.data count) ↔ w &&& 0xFFFFFF00 = 0x30000000 ∧ count = w.setWidth 8 :=
  eq_append_iff_masked w 0x300000 count

theorem eq_encode_rddig_iff (w : Cmd) (idx : BitVec 3) :
    w = encode (.rddig idx) ↔ w &&& 0xFFFFFFF8 = 0x60000000 ∧ idx = w.setWidth 3 :=
  eq_append_iff_masked w 0xC000000 idx

/-- A row without operands: its mask is all ones and its match is the command's word. -/
theorem decode_eq_instr_iff_of_full_mask {i : Instr} (hi : i.WellFormed) (w : Cmd) :
    decode w = .instr i ↔ w &&& 0xFFFFFFFF = encode i := by
  have hw : w &&& 0xFFFFFFFF = w := BitVec.and_allOnes
  rw [decode_eq_instr_iff, hw, and_iff_right hi]

/-- The OP of a command's word is assigned (R58). -/
theorem encode_op_assigned (i : Instr) : 1 ≤ (encode i >>> 28).toNat ∧ (encode i >>> 28).toNat ≤ 6 := by
  cases i with
  | data count => revert count; decide
  | rddig idx => revert idx; decide
  | init => decide
  | start => decide
  | eoi => decide
  | ioerr => decide
  | rdstat => decide

/-- The reserved bits of a command's word are 0, in the format its OP has (R55). -/
theorem encode_reserved_bits_zero (i : Instr) :
    ((encode i >>> 28).toNat ∈ [1, 2, 4, 5] → encode i &&& 0x0FFFFFFF = 0)
    ∧ ((encode i >>> 28).toNat = 3 → encode i &&& 0x0FFFFF00 = 0)
    ∧ ((encode i >>> 28).toNat = 6 → encode i &&& 0x0FFFFFF8 = 0) := by
  cases i with
  | data count => revert count; decide
  | rddig idx => revert idx; decide
  | init => decide
  | start => decide
  | eoi => decide
  | ioerr => decide
  | rdstat => decide

/-- OP 0x0 and 0x7 to 0xF are ILLEGAL (R60). -/
theorem decode_illegal_of_reserved_op {w : Cmd} (h : (w >>> 28).toNat = 0 ∨ 7 ≤ (w >>> 28).toNat) :
    ∃ why, decode w = .illegal why := by
  refine decode_illegal_of_ne_encode ?_
  rintro i rfl
  have := encode_op_assigned i
  omega

/-- An assigned OP with a reserved-zero bit set is ILLEGAL (R61). -/
theorem decode_illegal_of_reserved_bit {w : Cmd}
    (h : ((w >>> 28).toNat ∈ [1, 2, 4, 5] ∧ w &&& 0x0FFFFFFF ≠ 0)
      ∨ ((w >>> 28).toNat = 3 ∧ w &&& 0x0FFFFF00 ≠ 0)
      ∨ ((w >>> 28).toNat = 6 ∧ w &&& 0x0FFFFFF8 ≠ 0)) : ∃ why, decode w = .illegal why := by
  refine decode_illegal_of_ne_encode ?_
  rintro i rfl
  obtain ⟨h0, hd, hr⟩ := encode_reserved_bits_zero i
  rcases h with ⟨hop, hne⟩ | ⟨hop, hne⟩ | ⟨hop, hne⟩
  · exact hne (h0 hop)
  · exact hne (hd hop)
  · exact hne (hr hop)

/-- Settles O4: a row's command is decoded exactly on its words, and a reserved OP is in no command's word. -/
theorem decodeIsTheOpcodeMap : Obligations.DecodeIsTheOpcodeMap := by
  intro w
  refine ⟨decode_eq_instr_iff_of_full_mask rfl w, decode_eq_instr_iff_of_full_mask rfl w,
    decode_eq_instr_iff_of_full_mask rfl w, fun count => ?_, decode_eq_instr_iff_of_full_mask rfl w,
    decode_eq_instr_iff_of_full_mask rfl w, fun idx => ?_, decode_illegal_of_reserved_op⟩
  · rw [decode_eq_instr_iff, eq_encode_data_iff, and_comm, and_assoc, Instr.WellFormed, Instr.wf, bne_iff_ne]
  · rw [decode_eq_instr_iff, eq_encode_rddig_iff, and_iff_right (show (Instr.rddig idx).WellFormed from rfl)]

end Sys2Proof

namespace Sys2Proof.Machine

/-! ### The step on a request (R53, R60, R61, R131) -/

/-- An ILLEGAL word is rejected (R119). -/
theorem step_of_illegal {s : State} {r : Request} {rest : List HostEvent} {why : DecodeError}
    (h : s.inputs = .request r :: rest) (hd : decode r.cmd = .illegal why) :
    step s = .next (reject .illegal (presentRequest r rest s)) := by
  simp only [step, h, hd, execIllegal]

/-- A word that decodes to a command runs it (R109). -/
theorem step_of_instr {s : State} {r : Request} {rest : List HostEvent} {i : Instr}
    (h : s.inputs = .request r :: rest) (hd : decode r.cmd = .instr i) :
    step s = exec i (presentRequest r rest s) := by
  simp only [step, h, hd]

/-- Settles O6: a reserved OP is ILLEGAL, and an ILLEGAL word is rejected. -/
theorem reservedOpcodeIsRejected : Obligations.ReservedOpcodeIsRejected := by
  intro s r rest hin hop
  obtain ⟨why, hd⟩ := decode_illegal_of_reserved_op hop
  rw [step_of_illegal hin hd, reject_eq]
  rfl

/-- Settles O7: a reserved bit that is 1 makes the word ILLEGAL, and an ILLEGAL word is rejected. -/
theorem reservedBitIsRejected : Obligations.ReservedBitIsRejected := by
  refine ⟨fun s r rest hin hbit => ?_, ⟨.reservedBits, by decide⟩, ⟨.reservedBits, by decide⟩⟩
  obtain ⟨why, hd⟩ := decode_illegal_of_reserved_bit hbit
  rw [step_of_illegal hin hd, reject_eq]
  rfl

/-- The response of a command in one of its legal phases (R53, R110 to R118). -/
def legalResponse : Instr → State → Response
  | .init, _ => ⟨0, 0⟩
  | .start, _ => ⟨0, 0⟩
  | .eoi, _ => ⟨0, 0⟩
  | .data count, s => if spaceOffered s < count.toNat then ⟨2, 0⟩ else ⟨0, 0⟩
  | .ioerr, _ => ⟨1, 0⟩
  | .rdstat, s => ⟨0, (statusWord s).zeroExtend 64⟩
  | .rddig idx, s => ⟨0, s.digest.word idx⟩

theorem ruleOf_resp (i : Instr) (s : State) : (ruleOf i s).resp = some (legalResponse i s) := by
  cases i with
  | data n =>
    simp only [ruleOf, legalResponse]
    rcases deliver_cases n s with ⟨hc, he⟩ | ⟨hc, he⟩
    · rw [he, if_pos hc]
      rfl
    · rw [he, if_neg (by omega)]
      rfl
  | init => rfl
  | start => rfl
  | eoi => rfl
  | ioerr => rfl
  | rdstat => rfl
  | rddig k => rfl

/-- No rule touches what the host does next. -/
theorem ruleOf_inputs (i : Instr) (s : State) : (ruleOf i s).inputs = s.inputs := by
  cases i with
  | data n =>
    simp only [ruleOf]
    rcases deliver_cases n s with ⟨-, he⟩ | ⟨-, he⟩
    · rw [he, fatal_inputs]
    · obtain ⟨dg, f, ha, -⟩ := absorb_spec (dataBytes n s) s
      rw [he, respond_inputs, ha]
  | init => rfl
  | start => rfl
  | eoi => rfl
  | ioerr => rfl
  | rdstat => rfl
  | rddig k => rfl

/-- A command answers its own response in a legal phase and BAD_STATE elsewhere (R112, R131). -/
theorem exec_response (i : Instr) (s : State) :
    ∃ t, exec i s = .next t ∧ t.inputs = s.inputs
      ∧ t.resp = some (if legalIn i s.phase then legalResponse i s else ⟨4, 0⟩) := by
  rw [exec_eq_whenLegal]
  rcases whenLegal_cases i (ruleOf i) s with ⟨hl, hw⟩ | ⟨hl, hw⟩
  · exact ⟨_, hw, ruleOf_inputs i s, by rw [ruleOf_resp, if_pos hl]⟩
  · exact ⟨_, hw, reject_inputs _ _, by rw [hl]; rfl⟩

/-- Settles O13: an ILLEGAL word is rejected before its phase is looked at, and each command answers by its phase. -/
theorem responseOfEveryRequest : Obligations.ResponseOfEveryRequest := by
  intro s r rest hin
  cases hd : decode r.cmd with
  | illegal why => exact ⟨_, step_of_illegal hin hd, reject_inputs _ _, rfl⟩
  | instr i =>
    obtain ⟨t, ht, hinputs, hresp⟩ := exec_response i (presentRequest r rest s)
    refine ⟨t, (step_of_instr hin hd).trans ht, hinputs, hresp.trans ?_⟩
    cases i with
    | init => rfl
    | rdstat => rfl
    | start => exact congrArg some (if_congr decide_eq_true_iff rfl rfl)
    | data n => exact congrArg some (if_congr decide_eq_true_iff rfl rfl)
    | eoi => exact congrArg some (if_congr decide_eq_true_iff rfl rfl)
    | ioerr => exact congrArg some (if_congr decide_eq_true_iff rfl rfl)
    | rddig k => exact congrArg some (if_congr decide_eq_true_iff rfl rfl)

/-! ### The operand of START (R56) -/

/-- A byte below a value adds its number to 256 times the value's. -/
theorem toNat_append_byte {n : Nat} (x : BitVec n) (b : Byte) : (x ++ b).toNat = x.toNat * 256 + b.toNat := by
  rw [BitVec.toNat_append, ← Nat.shiftLeft_add_eq_or_of_lt b.isLt, Nat.shiftLeft_eq]

/-- LEN is the eight lanes side by side, PL[0] most significant. -/
theorem startLength_eq_append (s : State) :
    startLength s = lane s.payload 0 ++ lane s.payload 1 ++ lane s.payload 2 ++ lane s.payload 3
      ++ lane s.payload 4 ++ lane s.payload 5 ++ lane s.payload 6 ++ lane s.payload 7 := by
  have hlanes : lanes s.payload 8 = [lane s.payload 0, lane s.payload 1, lane s.payload 2, lane s.payload 3,
    lane s.payload 4, lane s.payload 5, lane s.payload 6, lane s.payload 7] := rfl
  have hnat : natOfBytes (lanes s.payload 8) = (lane s.payload 0 ++ lane s.payload 1 ++ lane s.payload 2
      ++ lane s.payload 3 ++ lane s.payload 4 ++ lane s.payload 5 ++ lane s.payload 6 ++ lane s.payload 7).toNat := by
    simp only [hlanes, natOfBytes, List.foldl, toNat_append_byte, Nat.zero_mul, Nat.zero_add]
  rw [startLength, wordOfBytes, hnat, BitVec.ofNat_toNat]
  exact BitVec.setWidth_eq _

/-- Settles O15, by the operand of START in EMPTY and by the legality check elsewhere. -/
theorem startLoadsTheLength : Obligations.StartLoadsTheLength := by
  intro s
  rw [exec_eq_whenLegal]
  refine ⟨fun hp => ?_, fun hp => ?_⟩
  · rw [whenLegal_of_legal _ (by simp [legalIn, hp]), ← startLength_eq_append]
    rfl
  · rw [whenLegal_of_illegal _ (by simp [legalIn, hp]), reject_eq]
    rfl

/-! ### The lanes that a command reads (R62) -/

/-- How many lanes a command reads, from PL[0] on. -/
def lanesRead : Instr → Nat
  | .start => 8
  | .data n => n.toNat
  | .init => 0 | .eoi => 0 | .ioerr => 0 | .rdstat => 0 | .rddig _ => 0

theorem lanes_congr {p q : List Byte} {n : Nat} (h : ∀ j, j < n → lane p j = lane q j) : lanes p n = lanes q n :=
  List.map_congr_left fun j hj => h j (List.mem_range.mp hj)

/-- The same state with other lanes on the port. -/
def withPayload (q : List Byte) (s : State) : State := { s with payload := q }

/-- Absorb takes its bytes from its argument, not from the lanes. -/
theorem absorb_withPayload (d q : List Byte) (s : State) :
    absorb d (withPayload q s) = withPayload q (absorb d s) := by
  unfold absorb
  exact (apply_ite (withPayload q) ((withBytes d s).fill.toNat = blockBytes s.variant)
    (compressFull (withBytes d s)) (withBytes d s)).symm

theorem reject_withPayload (e : ErrCode) (q : List Byte) (s : State) :
    reject e (withPayload q s) = withPayload q (reject e s) := by
  rw [reject_eq, reject_eq]
  rfl

/-- DATA reads the lanes through its bytes alone. -/
theorem deliver_withPayload {n : BitVec 8} {s : State} {q : List Byte}
    (h : ∀ j, j < n.toNat → lane s.payload j = lane q j) :
    deliver n (withPayload q s) = withPayload q (deliver n s) := by
  have hbytes : dataBytes n (withPayload q s) = dataBytes n s := (lanes_congr h).symm
  rw [deliver, hbytes, absorb_withPayload, deliver, apply_ite (withPayload q)]
  rfl

/-- A rule gives the same state, but for the lanes themselves, when the lanes it reads are the same. -/
theorem ruleOf_withPayload {i : Instr} {s : State} {q : List Byte}
    (h : ∀ j, j < lanesRead i → lane s.payload j = lane q j) :
    ruleOf i (withPayload q s) = withPayload q (ruleOf i s) := by
  cases i with
  | start =>
    have hlength : startLength (withPayload q s) = startLength s :=
      congrArg (wordOfBytes 64) (lanes_congr h).symm
    rw [ruleOf, hlength]
    rfl
  | data n => exact deliver_withPayload h
  | init => rfl
  | eoi => rfl
  | ioerr => rfl
  | rdstat => rfl
  | rddig k => rfl

/-- A command gives the same state, but for the lanes themselves, when the lanes it reads are the same: the legality
check and a rejection read none. -/
theorem exec_withPayload {i : Instr} {s t : State} {q : List Byte}
    (h : ∀ j, j < lanesRead i → lane s.payload j = lane q j) (ht : exec i s = .next t) :
    exec i (withPayload q s) = .next (withPayload q t) := by
  rw [exec_eq_whenLegal]
  rcases exec_next ht with ⟨hl, rfl⟩ | ⟨hl, rfl⟩
  · rw [whenLegal_of_legal (s := withPayload q s) _ hl, ruleOf_withPayload h]
  · rw [whenLegal_of_illegal (s := withPayload q s) _ hl, reject_withPayload]

/-- Settles O34, by the lanes that each command reads. -/
theorem unusedPayloadIsIgnored : Obligations.UnusedPayloadIsIgnored := by
  intro i s t p q hpq ht
  have hread : ∀ j, j < lanesRead i → lane p j = lane q j := by cases i <;> exact hpq
  exact exec_withPayload (s := { s with payload := p }) hread ht

end Sys2Proof.Machine
end

section
/-! PROOFS. Word arithmetic and the bit-mixing functions (40_word_mixing.md R66 to R79): what each bit of a shift, a
rotation, Ch, Maj and a sigma is, and the number that a word's bytes spell. -/

namespace Sys2Proof.Machine

variable {w : Nat}

/-! ### add_modulo (R66) -/

/-- Settles O45, by the laws of addition modulo 2^w on machine words. -/
theorem addModuloWraps : Obligations.AddModuloWraps :=
  fun _ a b c => ⟨BitVec.toNat_add a b, BitVec.add_assoc a b c, BitVec.add_comm a b⟩

/-! ### word_from_bytes (R67, R68) -/

theorem natOfBytes_concat (bs : List Byte) (b : Byte) : natOfBytes (bs ++ [b]) = natOfBytes bs * 256 + b.toNat := by
  simp only [natOfBytes, List.foldl_concat]

/-- As many bytes spell a number that fits in as many bytes. -/
theorem natOfBytes_lt (bs : List Byte) : natOfBytes bs < 2 ^ (8 * bs.length) := by
  induction bs using List.reverseRecOn with
  | nil => decide
  | append_singleton bs b ih =>
    have hb := b.isLt
    rw [natOfBytes_concat, List.length_append, List.length_singleton, Nat.mul_add, Nat.pow_add]
    omega

/-- Each byte counts with the weight of its place: one more byte at the end moves every earlier byte up by one place. -/
theorem natOfBytes_eq_sum (bs : List Byte) : natOfBytes bs =
    ((List.range bs.length).map fun j => (bs.getD j 0).toNat * 2 ^ (8 * (bs.length - 1 - j))).sum := by
  induction bs using List.reverseRecOn with
  | nil => rfl
  | append_singleton bs b ih =>
    have hearlier : ∀ j ∈ List.range bs.length,
        ((bs ++ [b]).getD j 0).toNat * 2 ^ (8 * (bs.length - j))
          = (bs.getD j 0).toNat * 2 ^ (8 * (bs.length - 1 - j)) * 256 := by
      intro j hj
      have hlt := List.mem_range.mp hj
      have hplace : 8 * (bs.length - j) = 8 * (bs.length - 1 - j) + 8 := by omega
      rw [List.getD_append _ _ _ _ hlt, hplace, Nat.pow_add, Nat.mul_assoc]
    have hlast : (bs ++ [b]).getD bs.length 0 = b := by simp
    rw [natOfBytes_concat, ih, ← List.sum_map_mul_right, List.length_append, List.length_singleton, List.range_succ,
      List.map_append, List.sum_append, Nat.add_sub_cancel, List.map_congr_left hearlier]
    simp only [List.map_cons, List.map_nil, List.sum_singleton, hlast, Nat.sub_self, Nat.mul_zero, Nat.pow_zero,
      Nat.mul_one]

theorem wordOfBytes_toNat {n : Nat} {bs : List Byte} (h : bs.length = n) :
    (wordOfBytes (8 * n) bs).toNat = natOfBytes bs := by
  subst h
  exact (BitVec.toNat_ofNat _ _).trans (Nat.mod_eq_of_lt (natOfBytes_lt bs))

theorem wordFromBytes_of_length {n : Nat} {bs : List Byte} (h : bs.length = n) :
    wordFromBytes (8 * n) bs = .ok (wordOfBytes (8 * n) bs) :=
  if_pos (h.trans (Nat.mul_div_cancel_left n (by decide)).symm)

theorem wordFromBytes_of_other_length {n : Nat} {bs : List Byte} (h : bs.length ≠ n) :
    wordFromBytes (8 * n) bs = .error .wordLength :=
  if_neg fun hl => h (hl.trans (Nat.mul_div_cancel_left n (by decide)))

/-- Settles O46, by the sum that the bytes spell and by the length check. -/
theorem wordFromBytesIsBigEndian : Obligations.WordFromBytesIsBigEndian := by
  refine fun nb bs => ⟨fun h => ⟨_, wordFromBytes_of_length h, ?_⟩, wordFromBytes_of_other_length⟩
  rw [wordOfBytes_toNat h, natOfBytes_eq_sum, h]

/-! ### Rotation and shift (R70, R71) -/

/-- The shifted half gives the bits below w - n, and the half that wraps around gives the n bits above them. -/
theorem rotr_getLsbD (x : BitVec w) {n i : Nat} (hn : n ≤ w) (hi : i < w) :
    (rotr x n).getLsbD i = x.getLsbD ((i + n) % w) := by
  rw [rotr, BitVec.getLsbD_or, BitVec.getLsbD_ushiftRight, BitVec.getLsbD_shiftLeft, Nat.add_comm n i]
  by_cases h : i + n < w
  · have hlow : i < w - n := by omega
    simp [Nat.mod_eq_of_lt h, hlow]
  · have hhigh : ¬ i < w - n := by omega
    have hwrap : (i + n) % w = i - (w - n) := by
      rw [Nat.mod_eq_sub_mod (by omega), Nat.mod_eq_of_lt (by omega)]
      omega
    simp [BitVec.getLsbD_of_ge x (i + n) (by omega), hi, hhigh, hwrap]

theorem rotr_by_zero (x : BitVec w) : rotr x 0 = x := by
  refine BitVec.eq_of_getLsbD_eq fun i hi => ?_
  rw [rotr_getLsbD x (Nat.zero_le w) hi, Nat.add_zero, Nat.mod_eq_of_lt hi]

theorem rotr_by_width (x : BitVec w) : rotr x w = x := by
  refine BitVec.eq_of_getLsbD_eq fun i hi => ?_
  rw [rotr_getLsbD x (Nat.le_refl w) hi, Nat.add_mod_right, Nat.mod_eq_of_lt hi]

@[simp] theorem rotr_of_zero (n : Nat) : rotr 0#w n = 0#w := by
  simp [rotr]

/-- Rotation moves ones to ones. -/
theorem rotr_of_allOnes {n : Nat} (hn : n ≤ w) : rotr (BitVec.allOnes w) n = BitVec.allOnes w := by
  refine BitVec.eq_of_getLsbD_eq fun i hi => ?_
  have hmod : (i + n) % w < w := Nat.mod_lt _ (by omega)
  rw [rotr_getLsbD _ hn hi, BitVec.getLsbD_allOnes, BitVec.getLsbD_allOnes, decide_eq_true hmod, decide_eq_true hi]

/-- Settles O47, by what one bit of a rotated word is. -/
theorem rotationMovesEachBit : Obligations.RotationMovesEachBit :=
  fun _ x _ hn => ⟨fun _ hi => rotr_getLsbD x hn hi, rotr_by_zero x, rotr_by_width x⟩

theorem shr_toNat (x : BitVec w) (n : Nat) : (shr x n).toNat = x.toNat / 2 ^ n := by
  rw [shr, BitVec.toNat_ushiftRight, Nat.shiftRight_eq_div_pow]

theorem shr_getLsbD (x : BitVec w) (n i : Nat) : (shr x n).getLsbD i = x.getLsbD (i + n) := by
  rw [shr, BitVec.getLsbD_ushiftRight, Nat.add_comm]

/-- Settles O48, by the bits that a shift brings in from beyond the word. -/
theorem shiftIsLogical : Obligations.ShiftIsLogical :=
  fun _ x n => ⟨shr_toNat x n, fun i hi => (shr_getLsbD x n i).trans (BitVec.getLsbD_of_ge x (i + n) hi)⟩

/-! ### Ch and Maj (R72, R73) -/

theorem ch_getLsbD (x y z : BitVec w) {i : Nat} (hi : i < w) :
    (ch x y z).getLsbD i = if x.getLsbD i then y.getLsbD i else z.getLsbD i := by
  rw [ch, BitVec.getLsbD_xor, BitVec.getLsbD_and, BitVec.getLsbD_and, BitVec.getLsbD_not, decide_eq_true hi]
  cases x.getLsbD i <;> simp

theorem maj_getLsbD (x y z : BitVec w) (i : Nat) :
    (maj x y z).getLsbD i = ((x.getLsbD i && y.getLsbD i) ^^ (x.getLsbD i && z.getLsbD i)
      ^^ (y.getLsbD i && z.getLsbD i)) := by
  simp only [maj, BitVec.getLsbD_xor, BitVec.getLsbD_and]

/-- The exclusive or of the three pairs is the majority. -/
theorem xor_of_pairs_iff_two_of_three : ∀ a b c : Bool,
    ((a && b) ^^ (a && c) ^^ (b && c)) = true ↔ 2 ≤ a.toNat + b.toNat + c.toNat := by
  decide

theorem ch_allOnes (y z : BitVec w) : ch (BitVec.allOnes w) y z = y := by
  simp [ch]

theorem ch_zero (y z : BitVec w) : ch 0 y z = z := by
  simp [ch]

/-- Two equal arguments are the majority: the two pairs with z cancel. -/
theorem maj_self (x z : BitVec w) : maj x x z = x := by
  rw [maj, BitVec.and_self, BitVec.xor_assoc, BitVec.xor_self, BitVec.xor_zero]

theorem maj_zero_allOnes (z : BitVec w) : maj 0 (BitVec.allOnes w) z = z := by
  simp [maj]

/-- Settles O49, by what one bit of Ch and of Maj is. -/
theorem chooseAndMajority : Obligations.ChooseAndMajority := by
  refine fun _ x y z => ⟨fun i hi => ch_getLsbD x y z hi, fun i _ => ?_,
    ch_allOnes y z, ch_zero y z, maj_self x z, maj_zero_allOnes z⟩
  rw [maj_getLsbD]
  exact xor_of_pairs_iff_two_of_three _ _ _

/-! ### The sigma functions (R74 to R79) -/

theorem le_width_of_inRange {t : Triple} (h : t.inRange w = true) : t.a ≤ w ∧ t.b ≤ w ∧ t.c ≤ w := by
  simp only [Triple.inRange, Bool.and_eq_true, decide_eq_true_eq] at h
  omega

theorem bigSigma_getLsbD {t : Triple} (x : BitVec w) (h : t.inRange w = true) {i : Nat} (hi : i < w) :
    (bigSigma t x).getLsbD i =
      ((x.getLsbD ((i + t.a) % w) ^^ x.getLsbD ((i + t.b) % w)) ^^ x.getLsbD ((i + t.c) % w)) := by
  obtain ⟨ha, hb, hc⟩ := le_width_of_inRange h
  rw [bigSigma, BitVec.getLsbD_xor, BitVec.getLsbD_xor, rotr_getLsbD x ha hi, rotr_getLsbD x hb hi,
    rotr_getLsbD x hc hi]

theorem littleSigma_getLsbD {t : Triple} (x : BitVec w) (h : t.inRange w = true) {i : Nat} (hi : i < w) :
    (littleSigma t x).getLsbD i =
      ((x.getLsbD ((i + t.a) % w) ^^ x.getLsbD ((i + t.b) % w)) ^^ x.getLsbD (i + t.c)) := by
  obtain ⟨ha, hb, -⟩ := le_width_of_inRange h
  rw [littleSigma, BitVec.getLsbD_xor, BitVec.getLsbD_xor, rotr_getLsbD x ha hi, rotr_getLsbD x hb hi, shr_getLsbD]

theorem bigSigma_zero (t : Triple) : bigSigma t 0#w = 0#w := by
  simp [bigSigma]

theorem littleSigma_zero (t : Triple) : littleSigma t 0#w = 0#w := by
  simp [littleSigma, shr]

/-- Of three all-ones rotations two cancel and one is left. -/
theorem bigSigma_allOnes {t : Triple} (h : t.inRange w = true) :
    bigSigma t (BitVec.allOnes w) = BitVec.allOnes w := by
  obtain ⟨ha, hb, hc⟩ := le_width_of_inRange h
  rw [bigSigma, rotr_of_allOnes ha, rotr_of_allOnes hb, rotr_of_allOnes hc, BitVec.xor_self, BitVec.zero_xor]

/-- The two all-ones rotations cancel and the shift is left. -/
theorem littleSigma_allOnes {t : Triple} (h : t.inRange w = true) :
    littleSigma t (BitVec.allOnes w) = BitVec.allOnes w >>> t.c := by
  obtain ⟨ha, hb, -⟩ := le_width_of_inRange h
  rw [littleSigma, rotr_of_allOnes ha, rotr_of_allOnes hb, BitVec.xor_self, BitVec.zero_xor, shr]

/-- Settles O50, by what one bit of a rotation and of a shift is, and by the rotations of all ones that cancel. -/
theorem sigmasBitByBit : Obligations.SigmasBitByBit :=
  fun _ t x h => ⟨fun _ hi => bigSigma_getLsbD x h hi, fun _ hi => littleSigma_getLsbD x h hi,
    bigSigma_zero t, littleSigma_zero t, bigSigma_allOnes h, littleSigma_allOnes h⟩

/-- Settles O51: the amounts and the uses are those of the variant table, the corner cases are those of the generic
sigmas, and the examples are evaluated. -/
theorem boundSigmas : Obligations.BoundSigmas := by
  refine ⟨fun _ => ⟨rfl, rfl, rfl, rfl⟩, fun _ => ⟨rfl, rfl, rfl, rfl⟩,
    fun _ _ _ _ => ⟨rfl, rfl, rfl⟩, fun _ _ _ _ => ⟨rfl, rfl, rfl⟩,
    bigSigma_zero _, bigSigma_allOnes (by decide), bigSigma_zero _, bigSigma_allOnes (by decide),
    littleSigma_zero _, littleSigma_allOnes (by decide), littleSigma_zero _, littleSigma_allOnes (by decide),
    bigSigma_zero _, bigSigma_allOnes (by decide), bigSigma_zero _, bigSigma_allOnes (by decide),
    littleSigma_zero _, littleSigma_allOnes (by decide), littleSigma_zero _, littleSigma_allOnes (by decide), ?_⟩
  decide

end Sys2Proof.Machine
end

section
/-! PROOFS. The engine and its padding (41_engine_padding.md): DATA's bytes in BUF (R82, R83, R113, R128), the blocks that
Pad gives, byte by byte (R87 to R89), EOI (R85, R114), and what can happen in DONE (R86). -/

namespace Sys2Proof.Machine

/-! ### A command in its phase and outside it (R109, R112) -/

theorem exec_of_legal {i : Instr} {s : State} (h : legalIn i s.phase = true) : exec i s = .next (ruleOf i s) := by
  rw [exec_eq_whenLegal, whenLegal_of_legal _ h]

theorem exec_of_illegal {i : Instr} {s : State} (h : legalIn i s.phase = false) :
    exec i s = .next { s with
      err := if s.phase = .faulted then s.err else .badState
      resp := some ⟨4, 0⟩ } := by
  rw [exec_eq_whenLegal, whenLegal_of_illegal _ h, reject_eq]
  rfl

/-! ### Absorb (R82, R83) -/

theorem absorb_eq (d : List Byte) (s : State) :
    absorb d s = if (withBytes d s).fill.toNat = blockBytes s.variant then compressFull (withBytes d s)
      else withBytes d s := rfl

theorem writeBytes_append (buf : List Byte) (off : Nat) (d e : List Byte) :
    writeBytes buf off (d ++ e) = writeBytes (writeBytes buf off d) (off + d.length) e := by
  induction d generalizing buf off with
  | nil => rfl
  | cons b d ih =>
    have hoff : off + 1 + d.length = off + (d.length + 1) := by omega
    rw [List.cons_append, writeBytes, ih, hoff]
    rfl

/-- Bytes put into BUF one piece after another are the bytes of both pieces (R82). -/
theorem withBytes_append {d e : List Byte} {s : State} (h : s.fill.toNat + d.length ≤ blockBytes s.variant) :
    withBytes (d ++ e) s = withBytes e (withBytes d s) := by
  have hbuf : writeBytes s.buf s.fill.toNat (d ++ e)
      = writeBytes (withBytes d s).buf (withBytes d s).fill.toNat e := by
    rw [withBytes_fill h, writeBytes_append, withBytes_buf]
  have hfill : s.fill + BitVec.ofNat 8 (d ++ e).length = (withBytes d s).fill + BitVec.ofNat 8 e.length := by
    rw [List.length_append, BitVec.ofNat_add, ← BitVec.add_assoc]
    rfl
  rw [withBytes, hbuf, hfill]
  rfl

/-- When the bytes so far leave space, Absorb does not depend on where a piece ends (R82). -/
theorem absorb_append {d e : List Byte} {s : State} (h : s.fill.toNat + d.length < blockBytes s.variant) :
    absorb (d ++ e) s = absorb e (absorb d s) := by
  rw [absorb_partial h, absorb_eq, withBytes_append (by omega), absorb_eq, withBytes_variant]

/-- Absorb neither reads nor writes the response. -/
theorem absorb_respond (d : List Byte) (e : ErrCode) (x : Word64) (s : State) :
    absorb d (respond e x s) = respond e x (absorb d s) := by
  rw [absorb_eq, absorb_eq, apply_ite (respond e x)]
  rfl

/-! ### DATA (R113, R128) -/

theorem exec_data_of_fits {n : BitVec 8} {s : State} (hp : s.phase = .accum)
    (h : s.fill.toNat + n.toNat ≤ blockBytes s.variant) :
    exec (.data n) s = .next (respond .ok 0 (absorb (lanes s.payload n.toNat) s)) := by
  have hspace : ¬ spaceOffered s < n.toNat := by
    unfold spaceOffered
    omega
  rw [exec_of_legal (by simp [legalIn, hp]), ruleOf, deliver, if_neg hspace, dataBytes]

theorem exec_data_of_exceeds {n : BitVec 8} {s : State} (hp : s.phase = .accum) (hn : n ≠ 0)
    (h : blockBytes s.variant < s.fill.toNat + n.toNat) : exec (.data n) s = .next (fatal .contract s) := by
  have hpos : 0 < n.toNat := by bv_omega
  have hspace : spaceOffered s < n.toNat := by
    unfold spaceOffered
    omega
  rw [exec_of_legal (by simp [legalIn, hp]), ruleOf, deliver, if_pos hspace]

/-- The `n` lanes of DATA are BUF[FILL..FILL+n−1] once they are put there, and the other bytes of BUF stay. -/
theorem exec_data_of_partial {n : BitVec 8} {s : State} (hp : s.phase = .accum)
    (hb : s.buf.length = blockBytes s.variant) (h : s.fill.toNat + n.toNat < blockBytes s.variant) :
    exec (.data n) s = .next { s with
      buf := s.buf.take s.fill.toNat ++ lanes s.payload n.toNat ++ s.buf.drop (s.fill.toNat + n.toNat)
      fill := s.fill + n
      resp := some ⟨0, 0⟩ } := by
  rw [exec_data_of_fits hp (by omega), absorb_partial (by rwa [lanes_length]), withBytes,
    writeBytes_eq (by rw [lanes_length]; omega), lanes_length, BitVec.ofNat_toNat, BitVec.setWidth_eq]
  rfl

/-- The `n` lanes of DATA that fill BUF leave none of its dead bytes, and the block is compressed. -/
theorem exec_data_of_full {n : BitVec 8} {s : State} (hp : s.phase = .accum)
    (hb : s.buf.length = blockBytes s.variant) (h : s.fill.toNat + n.toNat = blockBytes s.variant) :
    exec (.data n) s = .next { s with
      buf := s.buf.take s.fill.toNat ++ lanes s.payload n.toNat
      digest := compress s.digest (s.buf.take s.fill.toNat ++ lanes s.payload n.toNat)
      fill := 0
      resp := some ⟨0, 0⟩ } := by
  have hnone : s.buf.drop (s.fill.toNat + n.toNat) = [] := List.drop_eq_nil_of_le (by omega)
  rw [exec_data_of_fits hp (by omega), absorb_full (by rwa [lanes_length]), withBytes,
    writeBytes_eq (by rw [lanes_length]; omega), lanes_length, hnone, List.append_nil]
  rfl

/-- Driving a byte list on the lanes gives those bytes on as many lanes. -/
theorem lanes_self (l : List Byte) : lanes l l.length = l := by
  refine List.ext_getElem (lanes_length l _) fun j _ hj => ?_
  simp [lanes, lane, hj]

theorem lanes_append (d e : List Byte) {n : Nat} (h : n = d.length + e.length) : lanes (d ++ e) n = d ++ e := by
  rw [h, ← List.length_append, lanes_self]

/-- DATA with the lanes `p`: what it absorbs are the bytes on them, and the lanes themselves stay on the port. -/
theorem exec_data_withPayload {n : BitVec 8} {s : State} (p : List Byte) (hp : s.phase = .accum)
    (h : s.fill.toNat + n.toNat ≤ blockBytes s.variant) :
    exec (.data n) (withPayload p s) = .next (respond .ok 0 (withPayload p (absorb (lanes p n.toNat) s))) := by
  rw [exec_data_of_fits (s := withPayload p s) hp h, absorb_withPayload]
  rfl

/-- Two DATA commands leave what one DATA with the bytes of both leaves (R82): the second's bytes are absorbed after the
first's, whatever the lanes and the response between them. -/
theorem exec_data_split {s : State} {a b : BitVec 8} (p q : List Byte) (hp : s.phase = .accum) (hb : b ≠ 0)
    (h : s.fill.toNat + a.toNat + b.toNat ≤ blockBytes s.variant) :
    ∃ t u v, exec (.data a) (withPayload p s) = .next t
      ∧ exec (.data b) (withPayload q t) = .next u
      ∧ exec (.data (a + b)) (withPayload (lanes p a.toNat ++ lanes q b.toNat) s) = .next v
      ∧ u.SameCore v ∧ u.resp = v.resp := by
  have hpos : 0 < b.toNat := by bv_omega
  have hB := blockBytes_lt s.variant
  have hsum : (a + b).toNat = a.toNat + b.toNat := BitVec.toNat_add_of_lt (by omega)
  have hspace : s.fill.toNat + (lanes p a.toNat).length < blockBytes s.variant := by
    rw [lanes_length]
    omega
  have hfill : (withBytes (lanes p a.toNat) s).fill.toNat = s.fill.toNat + a.toNat := by
    rw [withBytes_fill hspace.le, lanes_length]
  have hfirst := exec_data_withPayload (n := a) p hp (by omega)
  have hsecond := exec_data_withPayload (n := b) (s := respond .ok 0 (withBytes (lanes p a.toNat) s)) q hp
    (by rw [respond_fill, hfill]; exact h)
  have hboth := exec_data_withPayload (n := a + b) (lanes p a.toNat ++ lanes q b.toNat) hp (by omega)
  rw [← absorb_partial hspace, absorb_respond, ← absorb_append hspace] at hsecond
  rw [lanes_append _ _ (by rw [lanes_length, lanes_length, hsum])] at hboth
  exact ⟨_, _, _, hfirst, hsecond, hboth, ⟨rfl, rfl, rfl, rfl, rfl, rfl⟩, rfl⟩

/-- Settles O16, by what Absorb leaves below and at B, by the contract violation beyond it, and by the absorption of
bytes piece after piece. -/
theorem dataDeliversBytes : Obligations.DataDeliversBytes := by
  refine ⟨fun s n hn hbuf => ⟨fun hp => exec_data_of_partial hp hbuf, fun hp => exec_data_of_full hp hbuf,
    fun hp => exec_data_of_exceeds hp hn, fun hp => exec_of_illegal (by simp [legalIn, hp])⟩, ?_⟩
  intro s a b p q hp _ _ hb h
  exact exec_data_split p q hp hb h

/-! ### The blocks of Pad, byte by byte (R87 to R89) -/

theorem lowerBound_le (v : Variant) : lowerBound v ≤ blockBytes v - 8 := by cases v <;> decide

/-- Pad below LB: one block (R88). -/
theorem pad_of_lt {v : Variant} {buf : List Byte} {fill : Nat} {len : Word64} (h : fill < lowerBound v) :
    pad v buf fill len
      = [buf.take fill ++ terminator :: zeroBytes (blockBytes v - 9 - fill) ++ lengthField len] := by
  have hzeros : blockBytes v - 8 - (fill + 1) = blockBytes v - 9 - fill := by omega
  rw [pad, if_pos h, hzeros]

/-- Pad from LB on: the spillover pair (R89). -/
theorem pad_of_ge {v : Variant} {buf : List Byte} {fill : Nat} {len : Word64} (h : lowerBound v ≤ fill) :
    pad v buf fill len
      = [buf.take fill ++ terminator :: zeroBytes (blockBytes v - 1 - fill),
         zeroBytes (blockBytes v - 8) ++ lengthField len] := by
  have hzeros : blockBytes v - (fill + 1) = blockBytes v - 1 - fill := by omega
  rw [pad, if_neg (by omega), hzeros]

@[simp] theorem zeroBytes_getD (n j : Nat) : (zeroBytes n).getD j 0 = 0 := by
  simp only [zeroBytes, List.getD, List.getElem?_replicate]
  split <;> rfl

/-- The valid bytes, the terminator, and zeros: the byte at each position, and 0 beyond the end. -/
theorem terminated_getD {buf : List Byte} {fill : Nat} (h : fill ≤ buf.length) (n j : Nat) :
    (buf.take fill ++ terminator :: zeroBytes n).getD j 0
      = if j < fill then buf.getD j 0 else if j = fill then 0x80 else 0 := by
  have htake : (buf.take fill).length = fill := List.length_take_of_le h
  rcases Nat.lt_trichotomy j fill with hlt | rfl | hgt
  · rw [if_pos hlt, List.getD_append _ _ _ _ (by omega)]
    simp [List.getD, hlt]
  · rw [if_neg (Nat.lt_irrefl j), if_pos rfl, List.getD_append_right _ _ _ _ htake.le, htake, Nat.sub_self]
    rfl
  · obtain ⟨k, hk⟩ : ∃ k, j - fill = k + 1 := ⟨j - fill - 1, by omega⟩
    rw [if_neg (by omega), if_neg (by omega), List.getD_append_right _ _ _ _ (by omega), htake, hk,
      List.getD_cons_succ, zeroBytes_getD]

theorem bitLength_eq_mul (len : Word64) : bitLength len = len * 8 := by
  apply BitVec.eq_of_toNat_eq
  rw [bitLength_toNat, BitVec.toNat_mul]
  rfl

/-- A block that ends in the length field: its bytes before the last 8, and the bytes of L64 there (R41, R90). -/
theorem append_lengthField_getD {v : Variant} {front : List Byte} (hf : front.length = blockBytes v - 8) (len : Word64)
    {j : Nat} (hj : j < blockBytes v) :
    (front ++ lengthField len).getD j 0
      = if j < blockBytes v - 8 then front.getD j 0
        else (len * 8).extractLsb' (8 * (blockBytes v - 1 - j)) 8 := by
  by_cases hlt : j < blockBytes v - 8
  · rw [if_pos hlt, List.getD_append _ _ _ _ (by omega)]
  · have hstart : 56 - 8 * (j - (blockBytes v - 8)) = 8 * (blockBytes v - 1 - j) := by
      have := blockBytes_cases v
      omega
    rw [if_neg hlt, List.getD_append_right _ _ _ _ (by omega), hf, lengthField_getD len (by omega), hstart,
      bitLength_eq_mul]

/-- Settles O41, by the bytes before the length field and the bytes of the field. -/
theorem padWithoutSpillover : Obligations.PadWithoutSpillover := by
  intro v buf fill len hbuf hfill
  have hLB := lowerBound_le v
  have hpad := pad_of_lt (buf := buf) (len := len) hfill
  have hfront : (buf.take fill ++ terminator :: zeroBytes (blockBytes v - 9 - fill)).length = blockBytes v - 8 := by
    simp only [List.length_append, List.length_take, List.length_cons, zeroBytes_length]
    omega
  refine ⟨_, hpad, pad_block_length hbuf (by omega) _ (hpad ▸ List.mem_singleton_self _), fun j hj => ?_⟩
  rw [append_lengthField_getD hfront len hj, terminated_getD (by omega)]
  by_cases hlt : j < blockBytes v - 8
  · rw [if_pos hlt, if_pos hlt]
  · rw [if_neg hlt, if_neg (by omega), if_neg (by omega), if_neg hlt]

/-- Settles O42, by the bytes of the terminated block and those of the block that holds the length field alone. -/
theorem padWithSpillover : Obligations.PadWithSpillover := by
  intro v buf fill len hbuf hLB hfill
  have hpad := pad_of_ge (buf := buf) (len := len) hLB
  have hlength := pad_block_length (len := len) hbuf hfill
  refine ⟨_, _, hpad, hlength _ (by simp [hpad]), hlength _ (by simp [hpad]),
    fun j _ => terminated_getD (by omega) _ j, fun j hj => ?_, fun d => by rw [hpad]; rfl⟩
  rw [append_lengthField_getD (zeroBytes_length _) len hj, zeroBytes_getD]

/-! ### EOI (R85, R114) -/

/-- EOI in ACCUM compresses the blocks of Pad in order, and BUF holds the last one (R85). -/
theorem exec_eoi_of_accum {s : State} (hp : s.phase = .accum) :
    exec .eoi s = .next { s with
      digest := compressAll s.digest (pad s.variant s.buf s.fill.toNat s.msgLen)
      buf := (pad s.variant s.buf s.fill.toNat s.msgLen).getLastD s.buf
      fill := 0
      phase := .done
      resp := some ⟨0, 0⟩ } :=
  exec_of_legal (by simp [legalIn, hp])

theorem lengthField_eq_shiftLeft (len : Word64) : lengthField len = bytesOfWord 8 (len <<< 3) := by
  rw [lengthField, bitLength_eq_shiftLeft]

/-- Settles O17, by the blocks of Pad below LB and from LB on. -/
theorem eoiPadsAndFinishes : Obligations.EoiPadsAndFinishes := by
  refine fun s => ⟨fun hp hlt => ?_, fun hp hge => ?_, fun hp => exec_of_illegal (by simp [legalIn, hp])⟩
  · rw [exec_eoi_of_accum hp, pad_of_lt hlt, lengthField_eq_shiftLeft]
    rfl
  · rw [exec_eoi_of_accum hp, pad_of_ge hge, lengthField_eq_shiftLeft]
    rfl

/-! ### DONE (R86) -/

/-- In DONE only INIT and the reads run (R112). -/
theorem init_or_read_of_legalIn_done {i : Instr} (h : legalIn i .done = true) :
    i = .init ∨ i = .rdstat ∨ ∃ k, i = .rddig k := by
  cases i with
  | init => exact .inl rfl
  | rdstat => exact .inr (.inl rfl)
  | rddig k => exact .inr (.inr ⟨k, rfl⟩)
  | start => cases h
  | data n => cases h
  | eoi => cases h
  | ioerr => cases h

theorem step_from_done {s t : State} (hp : s.phase = .done) (ht : step s = .next t) :
    (∃ rest, s.inputs = .reset :: rest) ∨ (∃ r rest, s.inputs = .resetDuring r :: rest)
    ∨ (∃ r rest, s.inputs = .request r :: rest ∧ decode r.cmd = .instr .init ∧ t.phase = .empty)
    ∨ (t.phase = .done ∧ t.digest = s.digest) := by
  rcases step_cases ht with ⟨-, rfl⟩ | ⟨rest, h | ⟨r, h⟩, -⟩ | ⟨r, rest, e, -, rfl⟩ | ⟨r, rest, i, hin, hd, hl, rfl⟩
  · exact .inr (.inr (.inr ⟨hp, rfl⟩))
  · exact .inl ⟨rest, h⟩
  · exact .inr (.inl ⟨r, rest, h⟩)
  · exact .inr (.inr (.inr ⟨by rw [reject_phase]; exact hp, by rw [reject_digest]; rfl⟩))
  · rw [hp] at hl
    rcases init_or_read_of_legalIn_done hl with rfl | rfl | ⟨k, rfl⟩
    · exact .inr (.inr (.inl ⟨r, rest, hin, hd, rfl⟩))
    · exact .inr (.inr (.inr ⟨hp, rfl⟩))
    · exact .inr (.inr (.inr ⟨hp, rfl⟩))

theorem exec_rejected_in_done {i : Instr} {s : State} (hp : s.phase = .done) (h : legalIn i .done = false) :
    exec i s = .next { s with err := .badState, resp := some ⟨4, 0⟩ } := by
  rw [exec_of_illegal (hp ▸ h), if_neg (by simp [hp])]

/-- Settles O26, by what each host event does in DONE and by the legality check. -/
theorem doneKeepsTheDigest : Obligations.DoneKeepsTheDigest := by
  refine ⟨fun s t => step_from_done, fun i s hp hi => exec_rejected_in_done hp ?_,
    fun s _ => ⟨_, exec_init s, rfl⟩, fun s rest _ hin => ⟨_, step_of_reset hin, rfl⟩⟩
  rcases hi with rfl | ⟨n, rfl⟩ | rfl | rfl
  · rfl
  · rfl
  · rfl
  · rfl

end Sys2Proof.Machine
end

section
/-! PROOFS. The compression of a block (42_compression.md): the recurrence of the schedule (R97, R98), the rounds as a loop
over the pairs of a K entry and a schedule word (R99, R106), and the tables as roots of the primes (R107). -/

namespace Sys2Proof.Machine

/-! ### The schedule (R97, R98) -/

theorem schedule_length {w : Nat} {p : Params w} (h : 16 ≤ p.rounds) (blk : List Byte) :
    (schedule p blk).length = p.rounds := by
  rw [schedule, expandSchedule_length, firstWords_length, Nat.add_sub_cancel' h]

theorem schedule_getD_of_lt {w : Nat} (p : Params w) (blk : List Byte) {j : Nat} (h : j < 16) :
    (schedule p blk).getD j 0 = blockWord w blk j := by
  rw [schedule, expandSchedule_prefix _ _ _ (by simpa using h)]
  simp [firstWords, h]

theorem wordFromBytes_slice {nb j : Nat} {blk : List Byte} (hb : blk.length = 16 * nb) (hj : j < 16) :
    wordFromBytes (8 * nb) ((blk.drop (j * nb)).take nb) = .ok (blockWord (8 * nb) blk j) := by
  have hroom : (j + 1) * nb ≤ 16 * nb := Nat.mul_le_mul_right nb hj
  have hslice : ((blk.drop (j * nb)).take nb).length = nb := by
    rw [Nat.succ_mul] at hroom
    rw [List.length_take, List.length_drop, hb]
    omega
  rw [wordFromBytes_of_length hslice, blockWord, bytesPerWord, Nat.mul_div_cancel_left nb (by decide)]

/-- Every word that an expansion adds is the sum of four words before it: it was so when the word was added, and the words
before it have stayed (R98). -/
theorem expandSchedule_recurrence {w : Nat} (p : Params w) (n : Nat) (ws : List (BitVec w)) {i : Nat} (h16 : 16 ≤ i)
    (hi : ws.length ≤ i) (hn : i < ws.length + n) :
    (expandSchedule p n ws).getD i 0 = (expandSchedule p n ws).getD (i - 16) 0
      + littleSigma p.littleSigma0 ((expandSchedule p n ws).getD (i - 15) 0)
      + (expandSchedule p n ws).getD (i - 7) 0
      + littleSigma p.littleSigma1 ((expandSchedule p n ws).getD (i - 2) 0) := by
  induction n generalizing ws with
  | zero => omega
  | succ n ih =>
    rcases hi.eq_or_lt with rfl | hlater
    · have hnew : (expandSchedule p (n + 1) ws).getD ws.length 0 = nextWord p ws := by
        rw [expandSchedule, expandSchedule_prefix _ _ _ (by simp)]
        simp
      have hearlier : ∀ k, 0 < k → (expandSchedule p (n + 1) ws).getD (ws.length - k) 0 = ws.getD (ws.length - k) 0 :=
        fun k hk => expandSchedule_prefix p (n + 1) ws (by omega)
      rw [hnew, hearlier 16 (by decide), hearlier 15 (by decide), hearlier 7 (by decide), hearlier 2 (by decide),
        nextWord]
    · exact ih _ (by simpa using hlater) (by simp; omega)

/-- Settles O52, by the block's slices for the first 16 words and the recurrence of the expansion for the others. -/
theorem scheduleRecurrence : Obligations.ScheduleRecurrence := by
  refine fun nb p blk hb hR => ⟨schedule_length hR blk, fun j hj => ?_, fun i h16 hi => ?_⟩
  · rw [wordFromBytes_slice hb hj, schedule_getD_of_lt p blk hj]
  · exact expandSchedule_recurrence p _ _ h16 (by simpa using h16) (by simp; omega)

/-! ### The rounds (R99, R106) -/

/-- The first `n` rounds run over the first `n` pairs of a K entry and a schedule word, each pair once and in order. -/
theorem afterRounds_eq_foldl_zip {w : Nat} (p : Params w) (ws : List (BitVec w)) (v : Working w) {n : Nat}
    (hk : n ≤ p.k.length) (hw : n ≤ ws.length) :
    afterRounds p ws v n = ((List.zip p.k ws).take n).foldl (fun v kw => oneRound p kw.1 kw.2 v) v := by
  induction n with
  | zero => rfl
  | succ n ih =>
    have hpair : n < (List.zip p.k ws).length := by rw [List.length_zip]; omega
    rw [afterRounds, ih (by omega) (by omega), List.take_succ_eq_append_getElem hpair, List.foldl_concat,
      List.getElem_zip, List.getD_eq_getElem _ _ (by omega), List.getD_eq_getElem _ _ (by omega)]

/-- All R rounds run over all pairs, when both the table and the schedule have R words. -/
theorem afterRounds_all {w : Nat} {p : Params w} {ws : List (BitVec w)} (v : Working w)
    (hk : p.k.length = p.rounds) (hw : ws.length = p.rounds) :
    afterRounds p ws v p.rounds = (List.zip p.k ws).foldl (fun v kw => oneRound p kw.1 kw.2 v) v := by
  rw [afterRounds_eq_foldl_zip p ws v hk.ge hw.ge, List.take_of_length_le (by simp [hk, hw])]

/-- Settles O53: the assignments made one after another give what the simultaneous update of a round gives, and the rounds
are the fold over the pairs. -/
theorem compressionIsTheRoundLoop : Obligations.CompressionIsTheRoundLoop := by
  refine ⟨rfl, rfl, fun w p hs blk hR hk => ⟨afterRounds p (schedule p blk) (workingOf hs) p.rounds, ?_, rfl⟩⟩
  exact afterRounds_all (workingOf hs) hk (schedule_length hR blk)

/-! ### The tables (R107) -/

/-- The first 80 primes, 2 to 409. -/
def firstPrimes : List Nat :=
  [2, 3, 5, 7, 11, 13, 17, 19, 23, 29, 31, 37, 41, 43, 47, 53, 59, 61, 67, 71,
   73, 79, 83, 89, 97, 101, 103, 107, 109, 113, 127, 131, 137, 139, 149, 151, 157, 163, 167, 173,
   179, 181, 191, 193, 197, 199, 211, 223, 227, 229, 233, 239, 241, 251, 257, 263, 269, 271, 277, 281,
   283, 293, 307, 311, 313, 317, 331, 337, 347, 349, 353, 359, 367, 373, 379, 383, 389, 397, 401, 409]

/-- Below 21², a number with a proper divisor has one below 21: the divisor or its cofactor. -/
theorem noDivisor_iff_noDivisor_below_21 {n : Nat} (hn : n < 21 * 21) :
    (∀ d < n, 2 ≤ d → n % d ≠ 0) ↔ ∀ d < 21, 2 ≤ d → d < n → n % d ≠ 0 := by
  refine ⟨fun h d _ h2 hd => h d hd h2, fun h d hd h2 hmod => ?_⟩
  obtain ⟨e, rfl⟩ := Nat.dvd_of_mod_eq_zero hmod
  rcases Nat.lt_or_ge d 21 with hsmall | hlarge
  · exact h d hsmall h2 hd hmod
  · have hsmall : e < 21 := Nat.lt_of_mul_lt_mul_left (a := d) (by omega)
    have he2 : 1 < e := Nat.lt_of_mul_lt_mul_left (a := d) (by omega)
    have he : e < d * e := lt_mul_of_one_lt_left (by omega) h2
    exact h e hsmall he2 he (Nat.mul_mod_left d e)

theorem trialDivision_below_410 :
    (List.range 410).filter (fun n => 2 ≤ n ∧ ∀ d < n, 2 ≤ d → n % d ≠ 0) = firstPrimes := by
  have hshort : (List.range 410).filter (fun n => 2 ≤ n ∧ ∀ d < 21, 2 ≤ d → d < n → n % d ≠ 0) = firstPrimes := by
    decide +kernel
  rw [← hshort]
  exact List.filter_congr fun n hn => decide_eq_decide.mpr <| and_congr_right fun _ =>
    noDivisor_iff_noDivisor_below_21 ((List.mem_range.mp hn).trans (by decide))

/-- The `e`-th root of `n` has an integer part below 8, and its first `w` fractional bits spell `x`. -/
abbrev HasRootBits (e w n x : Nat) : Prop :=
  ∃ q < 8, (q * 2 ^ w + x) ^ e ≤ n * 2 ^ (e * w) ∧ n * 2 ^ (e * w) < (q * 2 ^ w + x + 1) ^ e

theorem k256_cubeRoots : ∀ i < 64, HasRootBits 3 32 (firstPrimes.getD i 0) (k256.getD i 0).toNat := by
  decide +kernel

theorem k512_cubeRoots : ∀ i < 80, HasRootBits 3 64 (firstPrimes.getD i 0) (k512.getD i 0).toNat := by
  decide +kernel

theorem iv256_squareRoots : ∀ i < 8, HasRootBits 2 32 (firstPrimes.getD i 0) (iv256.toList.getD i 0).toNat := by
  decide +kernel

theorem iv512_squareRoots : ∀ i < 8, HasRootBits 2 64 (firstPrimes.getD i 0) (iv512.toList.getD i 0).toNat := by
  decide +kernel

/-- Settles O55, by the list of the primes and the roots in each table. -/
theorem constantsAreRootsOfPrimes : Obligations.ConstantsAreRootsOfPrimes := by
  unfold Obligations.ConstantsAreRootsOfPrimes
  rw [trialDivision_below_410]
  exact ⟨k256_cubeRoots, k512_cubeRoots, iv256_squareRoots, iv512_squareRoots, rfl, rfl⟩

end Sys2Proof.Machine
end

section
/-! PROOFS. The commands (43_commands.md): the phases in which each is legal (R112), INIT as the only way out of DONE and
FAULTED (R110), IOERR (R116), RDDIG (R118) and the ILLEGAL word (R119). -/

namespace Sys2Proof.Machine

/-! ### The legality table (R112) -/

/-- The phases that the table of R112 marks for each command. -/
theorem legalIn_iff (i : Instr) (p : Phase) :
    legalIn i p = true ↔ i = .init ∨ i = .rdstat ∨ (i = .start ∧ p = .empty)
      ∨ ((i = .eoi ∨ i = .ioerr ∨ ∃ n, i = .data n) ∧ p = .accum)
      ∨ ((∃ k, i = .rddig k) ∧ p = .done) := by
  cases i <;> simp [legalIn]

/-- BAD_STATE is never the answer of a command in one of its legal phases. -/
theorem legalResponse_errc_ne_badState (i : Instr) (s : State) : (legalResponse i s).errc ≠ 4 := by
  cases i with
  | data n =>
    rw [legalResponse]
    split
    · simp
    · simp
  | init => simp [legalResponse]
  | start => simp [legalResponse]
  | eoi => simp [legalResponse]
  | ioerr => simp [legalResponse]
  | rdstat => simp [legalResponse]
  | rddig k => simp [legalResponse]

/-- Settles O21: the table is the legality check, which runs the rule or rejects. -/
theorem phaseLegalityTable : Obligations.PhaseLegalityTable := by
  intro i s _
  rw [← legalIn_iff, Bool.not_eq_true]
  exact ⟨fun h => ⟨_, _, exec_of_legal h, ruleOf_resp i s, legalResponse_errc_ne_badState i s⟩, exec_of_illegal⟩

/-! ### IOERR (R116) -/

/-- Settles O18: in ACCUM the rule is the fault, and elsewhere IOERR is not legal. -/
theorem ioerrFaultsTheCore : Obligations.IoerrFaultsTheCore :=
  fun _ => ⟨fun hp => exec_of_legal (by simp [legalIn, hp]), fun hp => exec_of_illegal (by simp [legalIn, hp])⟩

/-! ### RDDIG (R118) -/

/-- Settles O20: in DONE the rule is the read of H[i], and elsewhere RDDIG is not legal. -/
theorem rddigReturnsTheDigestWord : Obligations.RddigReturnsTheDigestWord := by
  refine fun s i => ⟨fun hp => ?_, fun hp => exec_of_illegal (by simp [legalIn, hp])⟩
  rw [exec_of_legal (by simp [legalIn, hp]), ruleOf, respond]
  cases s.digest <;> rfl

/-! ### ILLEGAL (R119) -/

/-- Settles O8: an ILLEGAL word is rejected, and rejecting writes ERR outside FAULTED and the response. -/
theorem illegalWordIsRejected : Obligations.IllegalWordIsRejected := by
  intro s r rest why hin hd
  rw [step_of_illegal hin hd, reject_eq]
  rfl

/-! ### INIT (R110) -/

/-- What INIT writes depends on VARIANT alone, which it keeps, so a second INIT finds its result in place (R110). -/
theorem respond_reinitialize_idem (s : State) :
    respond .ok 0 (reinitialize (respond .ok 0 (reinitialize s))) = respond .ok 0 (reinitialize s) := by
  rw [reinitialize, respond_variant, reinitialize_variant]
  rfl

/-- In FAULTED only INIT and RDSTAT run (R112). -/
theorem init_or_rdstat_of_legalIn_faulted {i : Instr} (h : legalIn i .faulted = true) : i = .init ∨ i = .rdstat := by
  simpa [legalIn_iff] using h

/-- No command but INIT leaves DONE or FAULTED (R110, R112). -/
theorem exec_keeps_done_and_faulted {i : Instr} {s t : State} (hi : i ≠ .init)
    (hp : s.phase = .done ∨ s.phase = .faulted) (h : exec i s = .next t) : t.phase = s.phase := by
  rcases exec_next h with ⟨hl, rfl⟩ | ⟨-, rfl⟩
  · have hread : i = .rdstat ∨ ∃ k, i = .rddig k := by
      rcases hp with hp | hp <;> rw [hp] at hl
      · exact (init_or_read_of_legalIn_done hl).resolve_left hi
      · exact .inl ((init_or_rdstat_of_legalIn_faulted hl).resolve_left hi)
    rcases hread with rfl | ⟨k, rfl⟩
    · rfl
    · rfl
  · exact reject_phase _ s

/-- After INIT the status word shows VARIANT alone (R23, R110). -/
theorem statusWord_after_init (s : State) :
    (statusWord (respond .ok 0 (reinitialize s))).zeroExtend 64 = (variantBit s.variant).zeroExtend 64 <<< 16 := by
  simp only [statusWord, respond_variant, reinitialize_variant, respond_fill, reinitialize_fill, respond_err,
    reinitialize_err, respond_phase, reinitialize_phase]
  cases s.variant <;> rfl

/-- Settles O14, by the values INIT writes, what runs in DONE and FAULTED, and the status word that INIT leaves. -/
theorem initReinitializes : Obligations.InitReinitializes := by
  refine fun s => ⟨_, _, exec_init s, ?_, ⟨rfl, rfl, rfl, rfl, rfl, rfl⟩, ?_,
    fun i t => exec_keeps_done_and_faulted, exec_of_legal rfl, ?_⟩
  · rw [respond, reinitialize]
    cases s.variant <;> rfl
  · rw [exec_init, respond_reinitialize_idem]
  · rw [ruleOf_resp, legalResponse, statusWord_after_init]
    cases s.variant <;> rfl

end Sys2Proof.Machine
end

section
/-! PROOFS. The exceptions (60_exceptions.md): every error that a command answers is a fatal one, which changes only ERR and
PHASE (R129), or a rejection, which changes only ERR (R130). -/

namespace Sys2Proof.Machine

/-- A rule answers OK or raises a fatal error: IOERR's IO_FAULT and DATA's CONTRACT are the only ones (R127). -/
theorem ruleOf_answers_ok_or_raises_fatal (i : Instr) (s : State) :
    (∃ d, (ruleOf i s).resp = some ⟨0, d⟩) ∨ ruleOf i s = fatal .ioFault s ∨ ruleOf i s = fatal .contract s := by
  cases i with
  | data n =>
    simp only [ruleOf]
    rcases deliver_cases n s with ⟨-, he⟩ | ⟨-, he⟩
    · exact .inr (.inr he)
    · exact .inl ⟨0, by rw [he]; rfl⟩
  | ioerr => exact .inr (.inl rfl)
  | init => exact .inl ⟨_, rfl⟩
  | start => exact .inl ⟨_, rfl⟩
  | eoi => exact .inl ⟨_, rfl⟩
  | rdstat => exact .inl ⟨_, rfl⟩
  | rddig k => exact .inl ⟨_, rfl⟩

/-! ### Fatal errors (R129) -/

/-- A command that answers code 1 or 2 has raised a fatal error: neither a success nor a rejection answers so. -/
theorem exec_eq_fatal_of_code {i : Instr} {s t : State} {out : Response} (ht : exec i s = .next t)
    (hout : t.resp = some out) (hc : out.errc = 1 ∨ out.errc = 2) :
    t = fatal .ioFault s ∨ t = fatal .contract s := by
  rcases exec_next ht with ⟨-, rfl⟩ | ⟨-, rfl⟩
  · refine (ruleOf_answers_ok_or_raises_fatal i s).resolve_left ?_
    rintro ⟨d, hok⟩
    obtain rfl := Option.some.inj (hout.symm.trans hok)
    simp at hc
  · obtain rfl := Option.some.inj hout
    simp [ErrCode.code] at hc

/-- Settles O22: an answer of code 1 or 2 comes from a fatal error alone, and RDDIG is legal in DONE alone. -/
theorem fatalErrorsArePrecise : Obligations.FatalErrorsArePrecise := by
  refine ⟨fun i s t out ht hout hc => ?_, fun s k hp => ?_⟩
  · rcases exec_eq_fatal_of_code ht hout hc with rfl | rfl <;> obtain rfl := Option.some.inj hout
    · exact ⟨rfl, rfl⟩
    · exact ⟨rfl, rfl⟩
  · rw [exec_of_illegal (by simp [legalIn, hp]), if_pos hp]

/-! ### Rejections (R130) -/

/-- A step that answers code 3 or 4 has rejected its request: a rule that runs answers OK or raises a fatal error. -/
theorem step_eq_reject_of_code {s t : State} {r : Request} {rest : List HostEvent} {out : Response}
    (hin : s.inputs = .request r :: rest) (ht : step s = .next t) (hout : t.resp = some out)
    (hc : out.errc = 3 ∨ out.errc = 4) :
    t = reject .illegal (presentRequest r rest s) ∨ t = reject .badState (presentRequest r rest s) := by
  rcases step_request hin ht with ⟨-, -, hr⟩ | ⟨-, -, -, hr⟩ | ⟨i, -, -, rfl⟩
  · exact .inl hr
  · exact .inr hr
  · exfalso
    rcases ruleOf_answers_ok_or_raises_fatal i (presentRequest r rest s) with ⟨d, h⟩ | h | h
    · obtain rfl := Option.some.inj (hout.symm.trans h)
      simp at hc
    · obtain rfl := Option.some.inj (hout.symm.trans (congrArg State.resp h))
      simp [ErrCode.code] at hc
    · obtain rfl := Option.some.inj (hout.symm.trans (congrArg State.resp h))
      simp [ErrCode.code] at hc

/-- Settles O23: an answer of code 3 or 4 comes from a rejection alone, which writes ERR outside FAULTED and the
response. -/
theorem rejectedCommandsAreNotIssued : Obligations.RejectedCommandsAreNotIssued := by
  intro s t r rest out hin ht hout hc
  rcases step_eq_reject_of_code hin ht hout hc with rfl | rfl <;> obtain rfl := Option.some.inj hout
  · exact ⟨rfl, reject_eq .illegal (presentRequest r rest s)⟩
  · exact ⟨rfl, reject_eq .badState (presentRequest r rest s)⟩

end Sys2Proof.Machine
end

section
/-! PROOFS. Reset during a command (70_reset_and_hazards.md, R142): the command leaves nothing behind. -/

namespace Sys2Proof.Machine

/-- The reset input leaves the architectural state of a fresh instance of the same variant (R29, R141). -/
theorem assertReset_sameCore_resetOf (rest : List HostEvent) (s : State) :
    (assertReset rest s).SameCore (State.resetOf s.variant) :=
  ⟨rfl, rfl, rfl, rfl, rfl, rfl⟩

/-- Settles O10: reset wins over the request in progress, whatever that request is. -/
theorem resetDuringACommandAbandonsIt : Obligations.ResetDuringACommandAbandonsIt := by
  intro s r rest hin
  exact ⟨assertReset rest s, step_of_resetDuring hin, assertReset_sameCore_resetOf rest s,
    assertReset_resp rest s, assertReset_inputs rest s⟩

end Sys2Proof.Machine
end

section
/-! PROOFS. Decoder and encoder as inverses (30_encoding.md R54 to R61), the step on a request and without one (R109,
R148), the operand of a START request (R64), and the round-0 example (95_test_vectors.md section 4.1). -/

namespace Sys2Proof.Machine

/-! ### Decoding and encoding (R55, R58, R59) -/

/-- Settles O2: each command's word, at every operand, decodes to it. -/
theorem decodeOfEncode : Obligations.DecodeOfEncode :=
  fun _ => decode_encode_of_wellFormed

/-- Settles O3: a word that decodes to a command has that command's fields and no other bit. -/
theorem encodeOfDecode : Obligations.EncodeOfDecode := by
  intro w i hd
  obtain ⟨hwf, hw⟩ := eq_encode_of_decode hd
  exact ⟨hw.symm, hwf⟩

/-- Settles O1, by evaluating the decoder on the fifteen words. -/
theorem specWordsDecode : Obligations.SpecWordsDecode := by
  unfold Obligations.SpecWordsDecode
  decide

/-! ### The step (R109, R148) -/

/-- Settles O5, by the step on a word that decodes to a command. -/
theorem stepRunsTheDecodedCommand : Obligations.StepRunsTheDecodedCommand :=
  fun _ _ _ _ => step_of_instr

/-- Settles O11, by the step without a host event. -/
theorem idleCoreKeepsItsState : Obligations.IdleCoreKeepsItsState :=
  fun _ => step_of_no_event

/-- Settles O12: each host event is answered, a request by a rejection or by its command, which runs or is rejected. -/
theorem stepAlwaysAnswers : Obligations.StepAlwaysAnswers := by
  intro s
  rcases h : s.inputs with _ | ⟨⟨r⟩ | _ | ⟨r⟩, rest⟩
  · exact ⟨_, step_of_no_event h⟩
  · cases hd : decode r.cmd with
    | illegal why => exact ⟨_, step_of_illegal h hd⟩
    | instr i =>
      obtain ⟨t, ht, -⟩ := exec_response i (presentRequest r rest s)
      exact ⟨t, (step_of_instr h hd).trans ht⟩
  · exact ⟨_, step_of_reset h⟩
  · exact ⟨_, step_of_resetDuring h⟩

/-! ### The operand of a START request (R43, R64) -/

/-- The low byte of a word comes last, after the bytes of the rest (R11). -/
theorem bytesOfWord_succ {w : Nat} (n : Nat) (v : BitVec w) :
    bytesOfWord (n + 1) v = bytesOfWord n (v >>> 8) ++ [v.extractLsb' 0 8] := by
  have hhigh : ∀ j ∈ List.range n,
      v.extractLsb' (8 * (n + 1 - 1 - j)) 8 = (v >>> 8).extractLsb' (8 * (n - 1 - j)) 8 := by
    intro j hj
    have hj := List.mem_range.mp hj
    have hplace : 8 * (n + 1 - 1 - j) = 8 + 8 * (n - 1 - j) := by omega
    rw [hplace]
    ext k
    simp [Nat.add_assoc]
  rw [bytesOfWord, List.range_succ, List.map_append, List.map_congr_left hhigh, List.map_singleton, bytesOfWord]
  simp

/-- The number that the `n` low bytes of a word spell is the word's value modulo 256^n. -/
theorem natOfBytes_bytesOfWord {w : Nat} (n : Nat) (v : BitVec w) :
    natOfBytes (bytesOfWord n v) = v.toNat % 2 ^ (8 * n) := by
  induction n generalizing v with
  | zero => simp [bytesOfWord, natOfBytes, Nat.mod_one]
  | succ n ih =>
    have hpow : 2 ^ (8 * (n + 1)) = 2 ^ 8 * 2 ^ (8 * n) := by rw [← Nat.pow_add]; congr 1; omega
    rw [bytesOfWord_succ, natOfBytes_concat, ih, hpow, Nat.mod_mul, BitVec.toNat_ushiftRight, Nat.shiftRight_eq_div_pow,
      BitVec.extractLsb'_toNat, Nat.shiftRight_zero]
    omega

/-- A 64-bit word is the big-endian value of its eight bytes (R11). -/
theorem wordOfBytes_bytesOfWord (v : Word64) : wordOfBytes 64 (bytesOfWord 8 v) = v := by
  rw [wordOfBytes, natOfBytes_bytesOfWord, Nat.mod_eq_of_lt v.isLt, BitVec.ofNat_toNat, BitVec.setWidth_eq]

theorem startLength_startRequest (s : State) (len : Word64) :
    startLength (withPayload (startRequest len).payload s) = len := by
  have hlanes : lanes (bytesOfWord 8 len) 8 = bytesOfWord 8 len := lanes_self (bytesOfWord 8 len)
  exact (congrArg (wordOfBytes 64) hlanes).trans (wordOfBytes_bytesOfWord len)

/-- Settles O44: the request's lanes are the eight bytes of the length, and START loads the number they spell. -/
theorem startRequestCarriesItsLength : Obligations.StartRequestCarriesItsLength := by
  intro s len hp
  have hlegal : legalIn .start (withPayload (startRequest len).payload s).phase = true := decide_eq_true hp
  exact ⟨decode_encode_of_wellFormed rfl, _, exec_of_legal hlegal, startLength_startRequest s len⟩

/-! ### Round 0 on the padded block of "abc" -/

/-- Settles O54, by evaluating round 0 on the first schedule word. -/
theorem firstRoundExample : Obligations.FirstRoundExample := by
  unfold Obligations.FirstRoundExample
  decide

end Sys2Proof.Machine
end

section
/-! PROOFS. What the commands leave unchanged (20_memory.md section 3, 43_commands.md section 2), who writes MSG_LEN (R21),
and FAULTED, which only INIT and reset leave (R133). -/

namespace Sys2Proof.Machine

/-! ### The frames of the commands -/

/-- Settles O27: RDSTAT always runs, and a rejected RDDIG writes ERR. -/
theorem frameOfTheReads : Obligations.FrameOfTheReads := by
  refine ⟨fun s t ht => ?_, fun s t k ht => ?_⟩
  · rcases exec_next ht with ⟨-, rfl⟩ | ⟨hl, -⟩
    · exact ⟨_, rfl⟩
    · cases hl
  · rcases exec_next ht with ⟨-, rfl⟩ | ⟨hl, rfl⟩
    · exact ⟨_, s.err, rfl, fun _ => rfl⟩
    · exact ⟨_, _, reject_eq _ s, fun hp => by simp [legalIn, hp] at hl⟩

/-- Settles O28: the rules of START and IOERR, and their rejection. -/
theorem frameOfStartAndIoerr : Obligations.FrameOfStartAndIoerr := by
  refine ⟨fun s t ht => ?_, fun s t ht => ?_⟩
  · rcases exec_next ht with ⟨-, rfl⟩ | ⟨-, rfl⟩
    · exact ⟨_, _, s.err, _, rfl⟩
    · exact ⟨s.msgLen, s.phase, _, _, reject_eq _ s⟩
  · rcases exec_next ht with ⟨-, rfl⟩ | ⟨-, rfl⟩
    · exact ⟨_, _, _, rfl⟩
    · exact ⟨s.phase, _, _, reject_eq _ s⟩

/-- What DATA can do: leave BUF and all but PHASE, ERR and the response, or write its bytes from BUF[FILL] on. -/
theorem exec_data_writes {n : BitVec 8} {s t : State} (ht : exec (.data n) s = .next t) :
    (∃ p e out, t = { s with phase := p, err := e, resp := out })
    ∨ ∃ d f out, t = { s with
        digest := d, buf := writeBytes s.buf s.fill.toNat (dataBytes n s), fill := f, resp := out } := by
  rcases exec_next ht with ⟨-, rfl⟩ | ⟨-, rfl⟩
  · rw [ruleOf]
    rcases deliver_cases n s with ⟨-, he⟩ | ⟨-, he⟩
    · exact .inl ⟨_, _, _, he⟩
    · obtain ⟨d, f, ha, -⟩ := absorb_spec (dataBytes n s) s
      rw [he, ha]
      exact .inr ⟨d, f, _, rfl⟩
  · exact .inl ⟨s.phase, _, _, reject_eq _ s⟩

/-- Settles O29: DATA leaves BUF or writes its COUNT bytes from BUF[FILL] on. -/
theorem frameOfData : Obligations.FrameOfData := by
  intro s t n ht
  rcases exec_data_writes ht with ⟨p, e, out, rfl⟩ | ⟨d, f, out, rfl⟩
  · exact ⟨⟨s.digest, s.buf, s.fill, p, e, out, rfl⟩, fun _ _ => rfl, rfl⟩
  · refine ⟨⟨d, _, f, s.phase, s.err, out, rfl⟩, fun j hj => ?_, writeBytes_length _ _ _⟩
    exact writeBytes_outside (by rwa [dataBytes_length])

/-- No command changes VARIANT (R24). -/
theorem exec_variant {i : Instr} {s t : State} (ht : exec i s = .next t) : t.variant = s.variant := by
  rcases exec_next ht with ⟨-, rfl⟩ | ⟨-, rfl⟩
  · exact ruleOf_variant i s
  · exact reject_variant _ s

/-- Settles O30: the rules of EOI and INIT, and the rejection of EOI; INIT is legal in every phase. -/
theorem frameOfEoiAndInit : Obligations.FrameOfEoiAndInit := by
  refine ⟨fun s t ht => ⟨exec_variant ht, ?_⟩, fun s t ht => ⟨exec_variant ht, ?_⟩⟩
  · rcases exec_next ht with ⟨-, rfl⟩ | ⟨-, rfl⟩
    · exact ⟨_, _, _, _, s.err, _, rfl⟩
    · exact ⟨s.digest, s.buf, s.fill, s.phase, _, _, reject_eq _ s⟩
  · obtain rfl := Host.Outcome.next.inj ((exec_init s).symm.trans ht)
    exact ⟨rfl, rfl⟩

/-! ### MSG_LEN (R21) -/

/-- START is legal in EMPTY alone (R112). -/
theorem empty_of_legalIn_start {p : Phase} (h : legalIn .start p = true) : p = .empty := by
  simpa [legalIn] using h

/-- Settles O32: no rule but those of START, legal in EMPTY alone, and INIT writes MSG_LEN. -/
theorem msgLenIsWrittenOnlyByStart : Obligations.MsgLenIsWrittenOnlyByStart := by
  intro i s t ht
  rcases exec_next ht with ⟨hl, rfl⟩ | ⟨-, rfl⟩
  · cases i with
    | start => exact .inr (.inl ⟨rfl, empty_of_legalIn_start hl, rfl⟩)
    | init => exact .inr (.inr ⟨rfl, rfl⟩)
    | data n =>
      rcases exec_data_writes ht with ⟨p, e, out, h⟩ | ⟨d, f, out, h⟩
      · exact .inl (by rw [h])
      · exact .inl (by rw [h])
    | eoi => exact .inl rfl
    | ioerr => exact .inl rfl
    | rdstat => exact .inl rfl
    | rddig k => exact .inl rfl
  · exact .inl (reject_msgLen _ s)

/-! ### FAULTED (R133) -/

/-- In FAULTED a rejection changes no architectural state: ERR keeps the cause of the fault (R130). -/
theorem reject_sameCore_of_faulted {s : State} (e : ErrCode) (hp : s.phase = .faulted) : (reject e s).SameCore s := by
  rw [reject_eq, if_pos hp]
  exact ⟨rfl, rfl, rfl, rfl, rfl, rfl⟩

/-- Settles O25: in FAULTED only INIT and RDSTAT run, and RDSTAT, a rejection and an idle step keep the core's state. -/
theorem faultedIsLeftOnlyByInit : Obligations.FaultedIsLeftOnlyByInit := by
  intro s t hp ht
  rcases step_cases ht with ⟨-, rfl⟩ | ⟨rest, h | ⟨r, h⟩, -⟩ | ⟨r, rest, e, -, rfl⟩ | ⟨r, rest, i, hin, hd, hl, rfl⟩
  · exact .inr (.inr (.inr ⟨rfl, rfl, rfl, rfl, rfl, rfl⟩))
  · exact .inl ⟨rest, h⟩
  · exact .inr (.inl ⟨r, rest, h⟩)
  · exact .inr (.inr (.inr (reject_sameCore_of_faulted e (s := presentRequest r rest s) hp)))
  · rw [hp] at hl
    rcases init_or_rdstat_of_legalIn_faulted hl with rfl | rfl
    · exact .inr (.inr (.inl ⟨r, rest, hin, hd, rfl⟩))
    · exact .inr (.inr (.inr ⟨rfl, rfl, rfl, rfl, rfl, rfl⟩))

end Sys2Proof.Machine
end

section
/-! PROOFS. The invariant of the states held between commands (R17, R18, R20, R22, R129): reset gives it, and every step
keeps it, one lemma per shared operation. -/

namespace Sys2Proof.Machine

/-! ### Reset -/

/-- The reset values meet the invariant, whatever the response and the host's list. -/
theorem inv_of_sameCore_reinitialize {s t : State} (h : t.SameCore (reinitialize s)) : t.Inv := by
  obtain ⟨hdigest, hbuf, hfill, hphase, hmsgLen, herr⟩ := h
  have hvariant : t.variant = s.variant := by rw [State.variant, hdigest, reinitialize_digest, initial_variant]
  have hpos := blockBytes_pos s.variant
  simp [State.Inv, hdigest, hbuf, hfill, hphase, hmsgLen, herr, hvariant, hpos, ErrCode.fatal]

theorem resetOf_inv (v : Variant) : (State.resetOf v).Inv := by
  have hreset : (State.resetOf v).SameCore (reinitialize (State.resetOf v)) := by
    cases v
    · exact ⟨rfl, rfl, rfl, rfl, rfl, rfl⟩
    · exact ⟨rfl, rfl, rfl, rfl, rfl, rfl⟩
  exact inv_of_sameCore_reinitialize hreset

/-- Settles O35: the state after reset is the one INIT leaves, in both cores. -/
theorem invHoldsAfterReset : Obligations.InvHoldsAfterReset :=
  ⟨resetOf_inv .sha256, resetOf_inv .sha512, resetOf_inv .sha256⟩

theorem assertReset_inv (rest : List HostEvent) (s : State) : (assertReset rest s).Inv :=
  inv_of_sameCore_reinitialize (assertReset_sameCore_init rest s)

/-! ### Errors -/

/-- A rejection writes no fatal code, and none at all in FAULTED (R130). -/
theorem reject_inv {e : ErrCode} {s : State} (he : e.fatal = false) (h : s.Inv) : (reject e s).Inv := by
  obtain ⟨hbuf, hfill, hfinal, hempty, hdone, herr⟩ := h
  refine ⟨by simpa using hbuf, by simpa using hfill, by simpa using hfinal, by simpa using hempty,
    by simpa using hdone, ?_⟩
  rw [reject_phase, reject_err]
  split
  next => exact herr
  next hp => simp [hp, he]

/-- A fatal error leaves BUF and FILL, and its code with FAULTED (R129). -/
theorem fatal_inv {e : ErrCode} {s : State} (he : e.fatal = true) (h : s.Inv) : (fatal e s).Inv := by
  obtain ⟨hbuf, hfill, -⟩ := h
  exact ⟨hbuf, hfill, by simp, by simp, by simp, by simp [he]⟩

/-! ### The rules -/

/-- In ACCUM the invariant asks only for a whole BUF, FILL below B and no fatal error. -/
theorem inv_iff_of_accum {s : State} (hp : s.phase = .accum) :
    s.Inv ↔ s.buf.length = blockBytes s.variant ∧ s.fill.toNat < blockBytes s.variant ∧ s.err.fatal = false := by
  simp [State.Inv, hp]

/-- Absorb of bytes that fit keeps FILL below B: a full block is compressed and emptied (R82, R83). -/
theorem absorb_inv {d : List Byte} {s : State} (hp : s.phase = .accum) (h : s.Inv)
    (hd : s.fill.toNat + d.length ≤ blockBytes s.variant) : (absorb d s).Inv := by
  obtain ⟨hbuf, hfill, herr⟩ := (inv_iff_of_accum hp).mp h
  rcases hd.lt_or_eq with hlt | heq
  · rw [absorb_partial hlt]
    exact (inv_iff_of_accum (s := withBytes d s) hp).mpr
      ⟨by simpa using hbuf, by rwa [withBytes_fill hd, withBytes_variant], herr⟩
  · rw [absorb_full heq]
    exact (inv_iff_of_accum (s := compressFull (withBytes d s)) hp).mpr
      ⟨by simpa using hbuf, blockBytes_pos _, herr⟩

/-- Finalize leaves the last block of Pad, of B bytes, in BUF (R85). -/
theorem finalize_inv {s : State} (hp : s.phase = .accum) (h : s.Inv) : (finalize s).Inv := by
  obtain ⟨hbuf, hfill, herr⟩ := (inv_iff_of_accum hp).mp h
  refine ⟨?_, ?_, by simp, by simp, by simp, by simp [herr]⟩
  · rw [finalize_variant, finalize_buf]
    exact pad_last_length hbuf hfill
  · rw [finalize_variant, finalize_fill]
    exact blockBytes_pos _

/-- START only opens ACCUM (R111). -/
theorem start_inv {s : State} (len : Word64) (hp : s.phase = .empty) (h : s.Inv) :
    State.Inv { s with msgLen := len, phase := .accum } := by
  obtain ⟨hbuf, hfill, -, -, -, herr⟩ := h
  exact (inv_iff_of_accum rfl).mpr ⟨hbuf, hfill, by simpa [hp] using herr⟩

/-- A rule run in one of its command's legal phases keeps the invariant. -/
theorem ruleOf_inv {i : Instr} {s : State} (hl : legalIn i s.phase = true) (h : s.Inv) : (ruleOf i s).Inv := by
  cases i with
  | init => exact inv_of_sameCore_reinitialize (s := s) ⟨rfl, rfl, rfl, rfl, rfl, rfl⟩
  | start => exact start_inv (s := s) _ (empty_of_legalIn_start hl) h
  | eoi => exact finalize_inv (accum_of_legalIn_eoi hl) h
  | data n =>
    rw [ruleOf]
    rcases deliver_cases n s with ⟨-, he⟩ | ⟨hspace, he⟩
    · rw [he]
      exact fatal_inv rfl h
    · rw [he]
      have ⟨_, hfill, _⟩ := h
      unfold spaceOffered at hspace
      exact absorb_inv (accum_of_legalIn_data hl) h (by rw [dataBytes_length]; omega)
  | ioerr => exact fatal_inv rfl h
  | rdstat => exact h
  | rddig k => exact h

/-- Settles O36: an idle step keeps the core's state, reset gives the reset values, and a request is rejected or runs its
rule in a legal phase. -/
theorem stepKeepsInv : Obligations.StepKeepsInv := by
  intro s t h ht
  rcases hin : s.inputs with _ | ⟨⟨r⟩ | _ | ⟨r⟩, rest⟩
  · obtain rfl := Host.Outcome.next.inj ((step_of_no_event hin).symm.trans ht)
    exact h
  · have hpresent : (presentRequest r rest s).Inv := h
    rcases step_request hin ht with ⟨-, -, rfl⟩ | ⟨-, -, -, rfl⟩ | ⟨i, -, hl, rfl⟩
    · exact reject_inv rfl hpresent
    · exact reject_inv rfl hpresent
    · exact ruleOf_inv (s := presentRequest r rest s) hl hpresent
  · obtain rfl := Host.Outcome.next.inj ((step_of_reset hin).symm.trans ht)
    exact assertReset_inv rest s
  · obtain rfl := Host.Outcome.next.inj ((step_of_resetDuring hin).symm.trans ht)
    exact assertReset_inv rest s

end Sys2Proof.Machine
end

section
/-! PROOFS. The message across the commands: START begins it (R111), DATA appends to it whatever the chunking (R82, R83),
and EOI ends it with the digest of the padded message (R85, R93). -/

namespace Sys2Proof.Machine

/-! ### Cutting bytes into blocks -/

theorem compressAll_append (d : Digest) (xs ys : List (List Byte)) :
    compressAll d (xs ++ ys) = compressAll (compressAll d xs) ys :=
  List.foldl_append

/-- The blocks from the j-th on are the blocks of the bytes from there on. -/
theorem blocksOf_add (b j k : Nat) (m : List Byte) :
    blocksOf b (j + k) m = blocksOf b j m ++ blocksOf b k (m.drop (b * j)) := by
  induction j generalizing m with
  | zero => simp [blocksOf]
  | succ j ih =>
    have hoff : b + b * j = b * (j + 1) := by rw [Nat.mul_succ, Nat.add_comm]
    rw [Nat.add_right_comm, blocksOf, blocksOf, ih, List.drop_drop, hoff, List.cons_append]

/-- Bytes that follow do not change the blocks that are already whole. -/
theorem blocksOf_append_of_le {b k : Nat} {m : List Byte} (e : List Byte) (h : b * k ≤ m.length) :
    blocksOf b k (m ++ e) = blocksOf b k m := by
  induction k generalizing m with
  | zero => rfl
  | succ k ih =>
    rw [Nat.mul_succ] at h
    rw [blocksOf, blocksOf, List.take_append_of_le_length (by omega), List.drop_append_of_le_length (by omega),
      ih (by rw [List.length_drop]; omega)]

/-- Whole blocks put one after another are cut into the same blocks. -/
theorem blocksOf_flatten {b : Nat} {blocks : List (List Byte)} (h : ∀ blk ∈ blocks, blk.length = b) :
    blocksOf b blocks.length blocks.flatten = blocks := by
  induction blocks with
  | nil => rfl
  | cons blk blocks ih =>
    obtain ⟨hblk, hblocks⟩ := List.forall_mem_cons.mp h
    rw [List.length_cons, List.flatten_cons, blocksOf, List.take_left' hblk, List.drop_left' hblk, ih hblocks]

/-! ### START (R111) -/

theorem exec_start_of_empty {s : State} (hp : s.phase = .empty) :
    exec .start s = .next (respond .ok 0 { s with msgLen := startLength s, phase := .accum }) :=
  exec_of_legal (by simp [legalIn, hp])

/-- Settles O37: EMPTY holds the IV and no byte of BUF, which is what a message without bytes leaves. -/
theorem startBeginsAnEmptyMessage : Obligations.StartBeginsAnEmptyMessage := by
  intro s hinv hp
  obtain ⟨hbuf, -, -, hempty, -⟩ := hinv
  obtain ⟨hdigest, -, hfill, -⟩ := hempty hp
  refine ⟨_, exec_start_of_empty hp, ⟨rfl, hbuf, ?_, ?_, ?_⟩, rfl⟩
  · simp [hfill]
  · rw [List.length_nil, Nat.zero_div]
    exact hdigest
  · simp [hfill]

/-! ### DATA (R82, R83, R113) -/

/-- The whole blocks of `m` and the bytes after them. -/
theorem length_eq_blocks_add_rest {s : State} {m : List Byte} (h : s.Absorbed m) :
    m.length = blockBytes s.variant * (m.length / blockBytes s.variant) + s.fill.toNat := by
  obtain ⟨-, -, hfill, -⟩ := h
  rw [hfill, Nat.div_add_mod]

/-- How the length of a message splits into whole blocks and a rest fixes the quotient and the remainder. -/
theorem div_mod_of_blocks_add_rest {b q r n : Nat} (hn : n = b * q + r) (hr : r < b) : n / b = q ∧ n % b = r := by
  rw [hn, Nat.mul_add_div (by omega), Nat.div_eq_of_lt hr, Nat.mul_add_mod, Nat.mod_eq_of_lt hr]
  exact ⟨rfl, rfl⟩

/-- What BUF holds of the message, with the bytes that follow it, is the message beyond its whole blocks. -/
theorem take_fill_append_eq_drop {s : State} {m : List Byte} (h : s.Absorbed m) (e : List Byte) :
    s.buf.take s.fill.toNat ++ e = (m ++ e).drop (blockBytes s.variant * (m.length / blockBytes s.variant)) := by
  obtain ⟨-, -, -, -, hrest⟩ := h
  rw [hrest, List.drop_append_of_le_length (Nat.mul_div_le _ _)]

/-- Bytes that do not fill the block join the rest in BUF. -/
theorem absorbed_withBytes {s : State} {m d : List Byte} (h : s.Absorbed m)
    (hd : s.fill.toNat + d.length < blockBytes s.variant) : (withBytes d s).Absorbed (m ++ d) := by
  have hrest := take_fill_append_eq_drop h d
  have hfill := withBytes_fill hd.le
  have hlen := length_eq_blocks_add_rest h
  obtain ⟨hp, hbuf, -, hdigest, -⟩ := h
  have hlength : (m ++ d).length
      = blockBytes s.variant * (m.length / blockBytes s.variant) + (s.fill.toNat + d.length) := by
    rw [List.length_append]; omega
  obtain ⟨hdiv, hmod⟩ := div_mod_of_blocks_add_rest hlength hd
  refine ⟨hp, by simpa using hbuf, ?_, ?_, ?_⟩
  · rw [hfill, withBytes_variant, hmod]
  · rw [withBytes_digest, withBytes_variant, hdiv, blocksOf_append_of_le d (Nat.mul_div_le _ _)]
    exact hdigest
  · have hwritten : (s.buf.take s.fill.toNat ++ d).length = s.fill.toNat + d.length := by
      rw [List.length_append, List.length_take]; omega
    rw [hfill, withBytes_variant, hdiv, ← hrest, withBytes_buf, writeBytes_eq (by omega), List.take_left' hwritten]

/-- Bytes that fill the block complete one more block of the message, which is compressed, and leave no rest. -/
theorem absorbed_compressFull {s : State} {m d : List Byte} (h : s.Absorbed m)
    (hd : s.fill.toNat + d.length = blockBytes s.variant) : (compressFull (withBytes d s)).Absorbed (m ++ d) := by
  have hrest := take_fill_append_eq_drop h d
  have hlen := length_eq_blocks_add_rest h
  obtain ⟨hp, hbuf, -, hdigest, -⟩ := h
  have hblock : (withBytes d s).buf = s.buf.take s.fill.toNat ++ d := by
    rw [withBytes_buf, writeBytes_eq (by omega), hd, ← hbuf, List.drop_length, List.append_nil]
  have hblockLength : (s.buf.take s.fill.toNat ++ d).length = blockBytes s.variant := by
    rw [List.length_append, List.length_take]; omega
  have hwhole : (m ++ d).length = blockBytes s.variant * (m.length / blockBytes s.variant + 1) + 0 := by
    rw [List.length_append, Nat.mul_succ]; omega
  obtain ⟨hdiv, hmod⟩ := div_mod_of_blocks_add_rest hwhole (blockBytes_pos s.variant)
  refine ⟨hp, by simpa using hbuf, ?_, ?_, ?_⟩
  · rw [compressFull_variant, withBytes_variant, hmod]
    rfl
  · have hblocks : blocksOf (blockBytes s.variant) 1 (s.buf.take s.fill.toNat ++ d) = [s.buf.take s.fill.toNat ++ d] := by
      rw [blocksOf, blocksOf, List.take_of_length_le hblockLength.le]
    rw [compressFull_digest, withBytes_digest, hblock, compressFull_variant, withBytes_variant, hdiv, blocksOf_add,
      blocksOf_append_of_le d (Nat.mul_div_le _ _), ← hrest, hblocks, compressAll_append, ← hdigest]
    rfl
  · rw [compressFull_variant, withBytes_variant, hdiv, compressFull_fill, ← Nat.add_zero (_ * _), ← hwhole, List.drop_length]
    rfl

/-- Absorb appends its bytes to the message absorbed, when they fit in the block (R82). -/
theorem absorbed_absorb {s : State} {m d : List Byte} (h : s.Absorbed m)
    (hd : s.fill.toNat + d.length ≤ blockBytes s.variant) : (absorb d s).Absorbed (m ++ d) := by
  rcases hd.lt_or_eq with hlt | heq
  · rw [absorb_partial hlt]
    exact absorbed_withBytes h hlt
  · rw [absorb_full heq]
    exact absorbed_compressFull h heq

theorem absorb_msgLen (d : List Byte) (s : State) : (absorb d s).msgLen = s.msgLen := by
  obtain ⟨dg, f, ha, -⟩ := absorb_spec d s
  rw [ha]

/-- Settles O38: the bytes of DATA are absorbed, and they join the rest in BUF or complete one more block. -/
theorem dataAbsorbsItsBytes : Obligations.DataAbsorbsItsBytes := by
  intro s m n h _ hfit
  have habsorbed := absorbed_absorb (d := lanes s.payload n.toNat) h (by rwa [lanes_length])
  obtain ⟨hp, -⟩ := h
  exact ⟨_, exec_data_of_fits hp hfit, habsorbed, absorb_msgLen _ s⟩

/-! ### The padded message (R93) -/

/-- Below LB the zeros end where the length field of the same block begins. -/
theorem zeroFill_of_lt {v : Variant} {n : Nat} (h : n % blockBytes v < lowerBound v) :
    zeroFill v n = blockBytes v - 9 - n % blockBytes v := by
  unfold lowerBound at h
  unfold zeroFill
  rcases blockBytes_cases v with hB | hB <;> rw [hB] at h ⊢ <;> omega

/-- From LB on the zeros fill the block and go on to the length field of the next. -/
theorem zeroFill_of_ge {v : Variant} {n : Nat} (h : lowerBound v ≤ n % blockBytes v) :
    zeroFill v n = blockBytes v - 1 - n % blockBytes v + (blockBytes v - 8) := by
  unfold lowerBound at h
  unfold zeroFill
  rcases blockBytes_cases v with hB | hB <;> rw [hB] at h ⊢ <;> omega

theorem zeroBytes_add (a b : Nat) : zeroBytes (a + b) = zeroBytes a ++ zeroBytes b :=
  List.replicate_add _ _ _

/-- The blocks of Pad, put together, are what the padded message holds beyond the whole blocks of the message. -/
theorem pad_flatten (v : Variant) (buf : List Byte) (n : Nat) (len : Word64) :
    (pad v buf (n % blockBytes v) len).flatten
      = buf.take (n % blockBytes v) ++ (terminator :: zeroBytes (zeroFill v n) ++ lengthField len) := by
  rcases Nat.lt_or_ge (n % blockBytes v) (lowerBound v) with hlt | hge
  · rw [pad_of_lt hlt, zeroFill_of_lt hlt]
    simp
  · rw [pad_of_ge hge, zeroFill_of_ge hge, zeroBytes_add]
    simp

theorem pad_length (v : Variant) (buf : List Byte) (fill : Nat) (len : Word64) :
    (pad v buf fill len).length = if fill < lowerBound v then 1 else 2 := by
  unfold pad
  split <;> rfl

theorem paddedMessage_length (v : Variant) (m : List Byte) (len : Word64) :
    (paddedMessage v m len).length = m.length + zeroFill v m.length + 9 := by
  simp only [paddedMessage, List.length_append, List.length_cons, zeroBytes_length, lengthField_length]
  omega

/-- The zeros fill the block with the message's end, or that block and one more (R93). -/
theorem paddedMessage_length_eq_blocks (v : Variant) (m : List Byte) (len : Word64) :
    (paddedMessage v m len).length
      = blockBytes v * (m.length / blockBytes v + (if m.length % blockBytes v < lowerBound v then 1 else 2)) := by
  have hlen := Nat.div_add_mod m.length (blockBytes v)
  have hmod := Nat.mod_lt m.length (blockBytes_pos v)
  have hLB := lowerBound_le v
  rw [paddedMessage_length, Nat.mul_add]
  split
  next hlt =>
    have hB := blockBytes_cases v
    rw [zeroFill_of_lt hlt]
    omega
  next hge =>
    have hB := blockBytes_cases v
    rw [zeroFill_of_ge (Nat.le_of_not_lt hge)]
    omega

/-- Settles O40, by the zeros that fill the last block or the last two. -/
theorem paddedMessageIsWholeBlocks : Obligations.PaddedMessageIsWholeBlocks :=
  paddedMessage_length_eq_blocks

/-! ### EOI (R85, R93, R114) -/

/-- The padded message of an absorbed `m` is cut into the whole blocks of `m` and the blocks that Pad gives. -/
theorem blocksOf_paddedMessage {s : State} {m : List Byte} (h : s.Absorbed m) (len : Word64) :
    blocksOf (blockBytes s.variant) ((paddedMessage s.variant m len).length / blockBytes s.variant)
        (paddedMessage s.variant m len)
      = blocksOf (blockBytes s.variant) (m.length / blockBytes s.variant) m
        ++ pad s.variant s.buf s.fill.toNat len := by
  have hrest := take_fill_append_eq_drop h (terminator :: zeroBytes (zeroFill s.variant m.length) ++ lengthField len)
  obtain ⟨-, hbuf, hfill, -⟩ := h
  have hpos := blockBytes_pos s.variant
  have hpad : ∀ blk ∈ pad s.variant s.buf s.fill.toNat len, blk.length = blockBytes s.variant :=
    pad_block_length hbuf (hfill ▸ Nat.mod_lt _ hpos)
  have hflatten := pad_flatten s.variant s.buf m.length len
  rw [← hfill, hrest] at hflatten
  rw [paddedMessage_length_eq_blocks, Nat.mul_div_cancel_left _ hpos, ← hfill, ← pad_length s.variant s.buf _ len,
    paddedMessage, List.append_assoc, blocksOf_add, blocksOf_append_of_le _ (Nat.mul_div_le _ _), ← hflatten,
    blocksOf_flatten hpad]

/-- Settles O39: EOI compresses the blocks of Pad after those of the message, and these are the blocks of the padded
message. -/
theorem eoiGivesTheMessageDigest : Obligations.EoiGivesTheMessageDigest := by
  intro s m h
  have hblocks := blocksOf_paddedMessage h s.msgLen
  obtain ⟨hp, -, -, hdigest, -⟩ := h
  refine ⟨_, exec_eoi_of_accum hp, rfl, ?_⟩
  rw [messageDigest, hblocks, compressAll_append, ← hdigest]

end Sys2Proof.Machine
end

section
/-! PROOFS. The compressions that each command runs (R115, R149), and the rendering of the digest bytes as hexadecimal
digits (R42, R120). -/

namespace Sys2Proof.Machine

/-! ### Compressions (R115, R149) -/

/-- LB of each core (R6, R7). -/
theorem lowerBound_eq (v : Variant) : lowerBound v = (match v with | .sha256 => 56 | .sha512 => 112) := by
  cases v <;> rfl

/-- The row of each command: a DATA that fills the block, and an EOI by FILL against LB. -/
theorem compressionsRun_eq (i : Instr) (s : State) : compressionsRun i s = (match i with
    | .data n => if s.phase = .accum ∧ s.fill.toNat + n.toNat = blockBytes s.variant then 1 else 0
    | .eoi => if s.phase = .accum then
        (if s.fill.toNat < (match s.variant with | .sha256 => 56 | .sha512 => 112) then 1 else 2) else 0
    | .init => 0 | .start => 0 | .ioerr => 0 | .rdstat => 0 | .rddig _ => 0) := by
  cases i with
  | data n => exact (if_congr decide_eq_true_iff rfl rfl).trans (ite_and _ _ _ _).symm
  | eoi => exact if_congr decide_eq_true_iff (if_congr (iff_of_eq (congrArg _ (lowerBound_eq _))) rfl rfl) rfl
  | init => exact ite_self 0
  | start => exact ite_self 0
  | ioerr => exact ite_self 0
  | rdstat => exact ite_self 0
  | rddig k => exact ite_self 0

/-- `blocks` are `k` whole blocks whose compression, one after another, makes H of `t` from H of `s`. -/
def CompressesBlocks (s t : State) (k : Nat) (blocks : List (List Byte)) : Prop :=
  t.digest = compressAll s.digest blocks
    ∧ (∀ blk ∈ blocks, blk.length = blockBytes s.variant)
    ∧ blocks.length = k

theorem compressesBlocks_nil {s t : State} (h : t.digest = s.digest) : CompressesBlocks s t 0 [] :=
  ⟨h, by simp, rfl⟩

/-- DATA in ACCUM compresses BUF when its bytes fill it, and nothing otherwise (R82, R113, R128). -/
theorem deliver_compressions {n : BitVec 8} {s : State} (hbuf : s.buf.length = blockBytes s.variant)
    (hfill : s.fill.toNat < blockBytes s.variant) :
    ∃ blocks, CompressesBlocks s (deliver n s)
      (if s.fill.toNat + n.toNat = blockBytes s.variant then 1 else 0) blocks := by
  rcases deliver_cases n s with ⟨hspace, he⟩ | ⟨hspace, he⟩
  · unfold spaceOffered at hspace
    rw [he, if_neg (by omega)]
    exact ⟨[], compressesBlocks_nil rfl⟩
  · unfold spaceOffered at hspace
    rw [he]
    by_cases hfull : s.fill.toNat + n.toNat = blockBytes s.variant
    · rw [if_pos hfull, absorb_full (by rwa [dataBytes_length])]
      exact ⟨[(withBytes (dataBytes n s) s).buf], rfl, by simp [hbuf], rfl⟩
    · rw [if_neg hfull, absorb_partial (by rw [dataBytes_length]; omega)]
      exact ⟨[], compressesBlocks_nil rfl⟩

/-- A rule other than INIT's compresses as many whole blocks as its command's row says. -/
theorem ruleOf_compressions {i : Instr} {s : State} (hi : i ≠ .init) (hl : legalIn i s.phase = true)
    (hbuf : s.buf.length = blockBytes s.variant) (hfill : s.fill.toNat < blockBytes s.variant) :
    ∃ blocks, CompressesBlocks s (ruleOf i s) (compressionsRun i s) blocks := by
  unfold compressionsRun
  rw [if_pos hl]
  cases i with
  | init => exact absurd rfl hi
  | data n => exact deliver_compressions hbuf hfill
  | eoi => exact ⟨finalBlocks s, rfl, pad_block_length hbuf hfill, pad_length _ _ _ _⟩
  | start => exact ⟨[], compressesBlocks_nil rfl⟩
  | ioerr => exact ⟨[], compressesBlocks_nil rfl⟩
  | rdstat => exact ⟨[], compressesBlocks_nil rfl⟩
  | rddig k => exact ⟨[], compressesBlocks_nil rfl⟩

/-- Settles O58: a rejection compresses nothing, and a rule that runs compresses what its row says. -/
theorem compressionsOfEachCommand : Obligations.CompressionsOfEachCommand := by
  intro i s t hbuf hfill hi ht
  have hrun : ∃ blocks, CompressesBlocks s t (compressionsRun i s) blocks := by
    rcases exec_next ht with ⟨hl, rfl⟩ | ⟨hl, rfl⟩
    · exact ruleOf_compressions hi hl hbuf hfill
    · have hnone : compressionsRun i s = 0 := if_neg (by simp [hl])
      rw [hnone]
      exact ⟨[], compressesBlocks_nil (reject_digest _ s)⟩
  obtain ⟨blocks, hdigest, hlength, hcount⟩ := hrun
  exact ⟨blocks, hdigest, hlength, hcount, compressionsRun_eq i s⟩

/-! ### The hexadecimal rendering (R42, R120) -/

/-- The two hexadecimal digits of a byte, the high half first. -/
def byteDigits (b : Byte) : List Char := [hexDigit (b.toNat / 16), hexDigit (b.toNat % 16)]

/-- Twice as many positions are the positions of the pairs, two by two. -/
theorem map_range_two_mul {α : Type} (f : Nat → α) (n : Nat) :
    (List.range (2 * n)).map f = (List.range n).flatMap fun j => [f (2 * j), f (2 * j + 1)] := by
  induction n with
  | zero => rfl
  | succ n ih =>
    rw [Nat.mul_succ, List.range_succ, List.range_succ, List.range_succ, List.flatMap_append, ← ih]
    simp

/-- The halves of a byte of a word are the word's 4-bit slices at the byte's place. -/
theorem extractLsb'_byte_halves {w : Nat} (v : BitVec w) (start : Nat) :
    (v.extractLsb' start 8).toNat / 16 = (v.extractLsb' (start + 4) 4).toNat
      ∧ (v.extractLsb' start 8).toNat % 16 = (v.extractLsb' start 4).toNat := by
  simp only [BitVec.extractLsb'_toNat, Nat.shiftRight_add, Nat.shiftRight_eq_div_pow _ 4]
  omega

/-- The 2n digits of a word are the digits of its n bytes (R120). -/
theorem hexDigits_eq_flatMap {w : Nat} (n : Nat) (v : BitVec w) :
    hexDigits (2 * n) v = (bytesOfWord n v).flatMap byteDigits := by
  rw [hexDigits, map_range_two_mul, bytesOfWord, List.flatMap_map]
  refine List.flatMap_congr fun j hj => ?_
  have hj := List.mem_range.mp hj
  obtain ⟨hhigh, hlow⟩ := extractLsb'_byte_halves v (8 * (n - 1 - j))
  have hplaceHigh : 4 * (2 * n - 1 - 2 * j) = 8 * (n - 1 - j) + 4 := by omega
  have hplaceLow : 4 * (2 * n - 1 - (2 * j + 1)) = 8 * (n - 1 - j) := by omega
  rw [byteDigits, hhigh, hlow, hplaceHigh, hplaceLow]

theorem hexChars_eq_flatMap (d : Digest) : hexChars d = (digestBytes d).flatMap byteDigits := by
  cases d with
  | sha256 h =>
    rw [hexChars, digestBytes, List.flatMap_assoc]
    exact List.flatMap_congr fun v _ => hexDigits_eq_flatMap 4 v
  | sha512 h =>
    rw [hexChars, digestBytes, List.flatMap_assoc]
    exact List.flatMap_congr fun v _ => hexDigits_eq_flatMap 8 v

theorem digestBytes_length (d : Digest) :
    (digestBytes d).length = (match d with | .sha256 _ => 32 | .sha512 _ => 64) := by
  cases d <;> simp [digestBytes, List.length_flatMap]

theorem hexChars_length (d : Digest) : (hexChars d).length = 2 * (digestBytes d).length := by
  simp [hexChars_eq_flatMap, List.length_flatMap, byteDigits, Nat.mul_comm]

theorem hexDigit_mem : ∀ n < 16, hexDigit n ∈
    ['0', '1', '2', '3', '4', '5', '6', '7', '8', '9', 'a', 'b', 'c', 'd', 'e', 'f'] := by
  decide

/-- Settles O56: the digits of a word are those of its bytes, and each half of a byte is below 16. -/
theorem hexSpellsTheDigestBytes : Obligations.HexSpellsTheDigestBytes := by
  refine fun d => ⟨digestBytes_length d, ?_, hexChars_eq_flatMap d, fun c hc => ?_⟩
  · rw [hexChars_length, digestBytes_length]
    cases d <;> rfl
  · rw [hexChars_eq_flatMap] at hc
    obtain ⟨b, -, hb⟩ := List.mem_flatMap.mp hc
    have hhigh : b.toNat / 16 < 16 := Nat.div_lt_of_lt_mul b.isLt
    have hlow : b.toNat % 16 < 16 := Nat.mod_lt _ (by decide)
    rcases List.mem_pair.mp hb with rfl | rfl
    · exact hexDigit_mem _ hhigh
    · exact hexDigit_mem _ hlow

end Sys2Proof.Machine
end
